-- ==== Sys2Proof/Word.lean ====
section
/-! DEFINITION. The byte and the 32-bit word of 00_scope.md rule R7. -/

namespace Sys2Proof

/-- A byte: 8 bits (R7). -/
abbrev Byte := BitVec 8

/-- A word: a 32-bit value (R7). -/
abbrev Word := BitVec 32

end Sys2Proof
end

