-- ==== Sys2Proof/Config.lean ====
section
/-! DEFINITION. The parameters the source leaves open (00_scope.md rule R6, 10_state.md rule R28), and the free values. -/

namespace Sys2Proof

/-- One entry of the setup table: an (address, width, value) triple (44_pseudo_ops.md rule R194). -/
structure SetupEntry where
  addr : Word
  width : Byte
  value : Word
deriving DecidableEq, Repr

/-- The parameters of R6 that are OPEN or decided with a parameter. They are fixed for the machine: no step writes them
(R28). A state carries them as plain data, so a statement about every state speaks of every setting. -/
structure Config where
  /-- TIMEOUT_TICKS, a positive natural (D6). -/
  timeoutTicks : Nat
  /-- RESP_LSB_FIRST (R55, D5). -/
  respLsbFirst : Bool
  /-- HDR_LSB_FIRST (R53, D2). -/
  hdrLsbFirst : Bool
  /-- SETUP_TABLE (R194, D22). -/
  setupTable : List SetupEntry
  /-- BAUD_DIV_ADDR (R193, D21). -/
  baudDivAddr : Word
  /-- FIFO_TO_ADDR (R193, D21). -/
  fifoToAddr : Word
  /-- FIFO_TO_VALUE (R193, D21). -/
  fifoToValue : Word
deriving DecidableEq, Repr

/-- A free value for a result register the spec leaves unspecified (R221, U16): the n-th draw. Nothing constrains it
(log 10). -/
opaque Config.freeWord : Nat → Word

/-- TIMEOUT_TICKS less one, for the machine at reset: any natural number (D6, log 7). -/
opaque Config.timeoutTicksLessOne : Nat

/-- BAUD_DIV_ADDR of the machine at reset (D21, log 9). -/
opaque Config.openBaudDivAddr : Word

/-- FIFO_TO_ADDR of the machine at reset (D21, log 9). -/
opaque Config.openFifoToAddr : Word

/-- FIFO_TO_VALUE of the machine at reset (D21, log 9). -/
opaque Config.openFifoToValue : Word

/-- The one address the setup table writes 8 times (R194, D22, log 9). -/
opaque Config.openSetupRepeatAddr : Word

/-- How far from that address the addresses of the other 11 entries lie, less one (D22, log 9). -/
opaque Config.openSetupDistance : Nat → Nat

/-- The values of the setup table's 19 entries (D22, log 9). -/
opaque Config.openSetupValue : Nat → Word

/-- Where the 8 repeated writes stand among the others: R194 does not say (log 9). -/
opaque Config.openSetupSlot : Nat → Nat

/-- The address of the k-th entry that is not the repeated write: any address but the repeated one (R194, D22, log 9). -/
def Config.openSetupAddr (k : Nat) : Word :=
  Config.openSetupRepeatAddr + BitVec.ofNat 32 (1 + Config.openSetupDistance k % (2 ^ 32 - 1))

/-- The setup table of the machine at reset: 11 entries with the 8 repeated writes put in at any places, so 19 entries, every
width 32, one address occurring 8 times (R194, D22, log 9). -/
def Config.openSetupTable : List SetupEntry :=
  (List.range 8).foldl
    (fun t k => t.insertIdx (Config.openSetupSlot k % (t.length + 1))
      { addr := Config.openSetupRepeatAddr, width := 32, value := Config.openSetupValue (11 + k) })
    ((List.range 11).map fun k =>
      { addr := Config.openSetupAddr k, width := 32, value := Config.openSetupValue k })

/-- The parameters of the machine at reset: the byte orders at their defaults (D2, D5), the rest open. -/
def Config.atReset : Config where
  timeoutTicks := Config.timeoutTicksLessOne + 1
  respLsbFirst := true
  hdrLsbFirst := true
  setupTable := Config.openSetupTable
  baudDivAddr := Config.openBaudDivAddr
  fifoToAddr := Config.openFifoToAddr
  fifoToValue := Config.openFifoToValue

end Sys2Proof
end

