-- ==== Sys2Proof/Machine/Formats.lean ====
section
/-! DEFINITION. The fixed constants of 00_scope.md rule R6, each named once (U1), and the records of 30_encoding.md: the packet
value, the command descriptor, the three formats of opcode_table.json. -/

namespace Sys2Proof

/-- HDR_SYNC (R6, R82). -/
def hdrSync : BitVec 16 := 0x0505

/-- HDR_SETREG (R6, R82). -/
def hdrSetreg : BitVec 16 := 0x0202

/-- HDR_DLRUN (R6, R82). -/
def hdrDlrun : BitVec 16 := 0x0404

/-- END_FINAL (R6, R84). -/
def endFinal : Byte := 0xaa

/-- MAGIC_SYNC (R6, R89). -/
def magicSync : Word := 0xf0f0f0f0

/-- MAGIC_ACK (R6, R89). -/
def magicAck : Word := 0x56787856

/-- MAGIC_ACK2 (R6, R89). -/
def magicAck2 : Word := 0x128a8a12

/-- MAGIC_RUN_A (R6, R89). -/
def magicRunA : Word := 0x08888888

/-- MAGIC_RUN_B (R6, R89). -/
def magicRunB : Word := 0x88888888

/-- BLOCK_MAX: the most payload bytes of one block (R6, R171). -/
def blockMax : Nat := 4096

/-- The legal `widthBits` of SETREG (R6, R152). -/
def legalWidth (w : Byte) : Bool := w == 8 || w == 16 || w == 32

/-- The command codes of R90 and R91. -/
def opSync : BitVec 3 := 0
def opSetreg : BitVec 3 := 1
def opDownload : BitVec 3 := 2
def opRun : BitVec 3 := 3

/-- A Packet value (30_encoding.md rule R80, 40_codec.md). `endFlag` is the field `end`. -/
structure Packet where
  header : BitVec 16
  address : Word
  type : Byte
  length : Word
  data : Word
  endFlag : Byte
deriving DecidableEq, Repr

/-- The class CLASSIFY gives a packet (40_codec.md rule R114). -/
inductive PacketClass where
  | sync
  | setreg
  | dlblk
  | run
  | reserved
deriving DecidableEq, Repr

/-- The command descriptor: the six operand registers of 10_state.md rule R22, in which a command is presented
(30_encoding.md rule R90). -/
structure Descriptor where
  op : BitVec 3
  addr : Word
  width : Byte
  value : Word
  len : Word
  ign : Bool
deriving DecidableEq, Repr

/-- What an instruction is written in: a command descriptor (CMD_OP3), a packet of 16 bytes (PACKET128) or a response word
of 4 bytes (RESP32), the byte sent or received first at index 0 (30_encoding.md rule R93, R7). -/
inductive Wire where
  | command (d : Descriptor)
  | packet (b : Vector Byte 16)
  | response (r : Vector Byte 4)
deriving DecidableEq, Repr

/-- The format of an opcode-table row (R93). -/
inductive Format where
  | cmdOp3
  | packet128
  | resp32
deriving DecidableEq, Repr

/-- The format a piece of wire has. -/
def Wire.format : Wire → Format
  | .command _ => .cmdOp3
  | .packet _ => .packet128
  | .response _ => .resp32

/-- Why the decoder takes some bytes for no row of opcode_table.json. -/
inductive Reject where
  /-- `header` is none of the three (R87: class RESERVED). -/
  | reservedHeader
  /-- A SET-REGISTER packet whose `type` is not 8, 16 or 32 (R87: `bad_width`). -/
  | badWidth
  /-- A block header whose `length` is not 1 to 4096 (R86). -/
  | badLength
  /-- A DOWNLOAD packet whose `end` is neither 0 nor 0xaa (R84, R87). -/
  | badEnd
  /-- A field the shape leaves at zero is not zero (R86, R87). -/
  | fieldNotZero
  /-- 4 bytes that are none of the five response words (R89). -/
  | notAResponse
  /-- A number of bytes, or of bits, that no format has (R81, R89, R93). -/
  | noSuchFormat
deriving DecidableEq, Repr

end Sys2Proof
end

