-- ==== Sys2Proof/Syntax.lean ====
section
/-! DEFINITION. The instructions: one constructor per row of opcode_table.json (30_encoding.md rules R86, R89, R91, R93). -/

namespace Sys2Proof

/-- The rows of opcode_table.json. The packet rows are what ENG sends, the command rows what SEQ presents, the response
rows what DEV answers. -/
inductive Instr where
  /-- SYNC: packet P_SYNC (R86, R151). -/
  | sync
  /-- SETREG: packet P_SETREG with its address, `type` and `data` (R86, R152). -/
  | setreg (addr : Word) (width : Byte) (value : Word)
  /-- DOWNLOAD.DLBLK: packet P_DLBLK with its address and `length` (R86, R171). -/
  | downloadDlblk (addr : Word) (len : Word)
  /-- RUN: packet P_RUN with the resolved jump target (R86, R153). -/
  | run (addr : Word)
  /-- RUN.HSHAKE: packet P_HSHAKE, the same bytes as P_SYNC (R86, R153). -/
  | runHshake
  /-- CMD.SYNC: descriptor with `cmd_op` 0 (R90). -/
  | cmdSync
  /-- CMD.SETREG: descriptor with `cmd_op` 1 (R90). -/
  | cmdSetreg (addr : Word) (width : Byte) (value : Word) (ign : Bool)
  /-- CMD.DOWNLOAD: descriptor with `cmd_op` 2 (R90). -/
  | cmdDownload (addr : Word) (len : Word)
  /-- CMD.RUN: descriptor with `cmd_op` 3; address 0 is the sentinel (R90). -/
  | cmdRun (addr : Word)
  /-- CMD.RESERVED: descriptor with `cmd_op` 4 to 7, `x` its low two bits (R91, R218). -/
  | cmdReserved (x : BitVec 2)
  /-- RESP.SYNC_OK: the word 0xf0f0f0f0 (R89). -/
  | respSyncOk
  /-- RESP.ACK: the word 0x56787856 (R89). -/
  | respAck
  /-- RESP.ACK2: the word 0x128a8a12 (R89). -/
  | respAck2
  /-- RESP.RUN_A: the word 0x08888888 (R89). -/
  | respRunA
  /-- RESP.RUN_B: the word 0x88888888 (R89). -/
  | respRunB
deriving DecidableEq, Repr

end Sys2Proof
end

