-- ==== Sys2Proof/WellFormed.lean ====
section
/-! DEFINITION. Which instructions the encoding tables admit (30_encoding.md rules R83, R86). -/

namespace Sys2Proof

/-- `type` of a SET-REGISTER packet is 8, 16 or 32 (R83); `length` of a block header is 1 to 4096 (R86). Every other
operand takes every value; a command descriptor may hold an illegal width, so that `InvalidWidth` can be reported (R22). -/
def Instr.wellFormed : Instr → Bool
  | .setreg _ width _ => legalWidth width
  | .downloadDlblk _ len => decide (1 ≤ len.toNat) && decide (len.toNat ≤ blockMax)
  | .sync => true
  | .run _ => true
  | .runHshake => true
  | .cmdSync => true
  | .cmdSetreg _ _ _ _ => true
  | .cmdDownload _ _ => true
  | .cmdRun _ => true
  | .cmdReserved _ => true
  | .respSyncOk => true
  | .respAck => true
  | .respAck2 => true
  | .respRunA => true
  | .respRunB => true

end Sys2Proof
end

