-- ==== Sys2Proof/Decode.lean ====
section
/-! DEFINITION. The codec of 40_codec.md (SWAP32, ENCODE, DECODE, CLASSIFY, WORD, WORD_BYTES), the decoder of the three formats
of opcode_table.json, and the encoder. All pure and total (R116). -/

namespace Sys2Proof

/-! ### Bytes of a word -/

/-- `v[31:24]`. -/
def byte3 (v : Word) : Byte := v.extractLsb' 24 8

/-- `v[23:16]`. -/
def byte2 (v : Word) : Byte := v.extractLsb' 16 8

/-- `v[15:8]`. -/
def byte1 (v : Word) : Byte := v.extractLsb' 8 8

/-- `v[7:0]`. -/
def byte0 (v : Word) : Byte := v.extractLsb' 0 8

/-- Four bytes, the most significant first, as a word: `b3 ++ b2 ++ b1 ++ b0` (R7). -/
def wordOf (b3 b2 b1 b0 : Byte) : Word := b3 ++ b2 ++ b1 ++ b0

/-! ### The codec -/

/-- SWAP32 (R110). -/
def swap32 (v : Word) : Word := wordOf (byte0 v) (byte1 v) (byte2 v) (byte3 v)

/-- ENCODE (R111): the fields at the offsets of R80, the 32-bit ones most significant byte first (R52), the header by
HDR_LSB_FIRST (R53), `type` and `end` as they are (R54). -/
def encodePacket (cfg : Config) (p : Packet) : Vector Byte 16 :=
  let lo : Byte := p.header.extractLsb' 0 8
  let hi : Byte := p.header.extractLsb' 8 8
  #v[if cfg.hdrLsbFirst then lo else hi, if cfg.hdrLsbFirst then hi else lo,
     byte3 p.address, byte2 p.address, byte1 p.address, byte0 p.address,
     p.type,
     byte3 p.length, byte2 p.length, byte1 p.length, byte0 p.length,
     byte3 p.data, byte2 p.data, byte1 p.data, byte0 p.data,
     p.endFlag]

/-- DECODE (R112), the inverse of ENCODE. It validates nothing. -/
def decodePacket (cfg : Config) (b : Vector Byte 16) : Packet where
  header := if cfg.hdrLsbFirst then b[1] ++ b[0] else b[0] ++ b[1]
  address := wordOf b[2] b[3] b[4] b[5]
  type := b[6]
  length := wordOf b[7] b[8] b[9] b[10]
  data := wordOf b[11] b[12] b[13] b[14]
  endFlag := b[15]

/-- CLASSIFY (R114): the class, and the flag `bad_width`. -/
def classify (p : Packet) : PacketClass × Bool :=
  if p.header = hdrSync then (.sync, false)
  else if p.header = hdrSetreg then (.setreg, !legalWidth p.type)
  else if p.header = hdrDlrun then (if p.endFlag = endFinal then .run else .dlblk, false)
  else (.reserved, false)

/-- WORD (R115, R55): `r[0]` is the byte received first. SWAP32 is not applied. -/
def wordOfResponse (cfg : Config) (r : Vector Byte 4) : Word :=
  if cfg.respLsbFirst then wordOf r[3] r[2] r[1] r[0] else wordOf r[0] r[1] r[2] r[3]

/-- WORD_BYTES (R115), the inverse of WORD. -/
def responseOfWord (cfg : Config) (w : Word) : Vector Byte 4 :=
  if cfg.respLsbFirst then #v[byte0 w, byte1 w, byte2 w, byte3 w]
  else #v[byte3 w, byte2 w, byte1 w, byte0 w]

/-! ### The packet shapes of R86 -/

/-- P_SYNC, and P_HSHAKE, which has the same fields (R86, D12). -/
def pSync : Packet :=
  { header := hdrSync, address := 0, type := 0, length := 0, data := 0, endFlag := 0 }

/-- P_SETREG (R86): `data` is the full 32-bit value at every width, `end` is 0 (R85, D11). -/
def pSetreg (addr : Word) (width : Byte) (value : Word) : Packet :=
  { header := hdrSetreg, address := addr, type := width, length := 0, data := value, endFlag := 0 }

/-- P_DLBLK (R86). -/
def pDlblk (addr : Word) (len : Word) : Packet :=
  { header := hdrDlrun, address := addr, type := 0, length := len, data := 0, endFlag := 0 }

/-- P_RUN (R86). -/
def pRun (addr : Word) : Packet :=
  { header := hdrDlrun, address := addr, type := 0, length := 0, data := 0, endFlag := endFinal }

/-! ### The decoder -/

/-- The instruction a packet is (R86). P_SYNC and P_HSHAKE are the same bytes (R114); `handshake` says that the packet is sent
in RUN's second exchange. -/
def decodePacketRow (cfg : Config) (handshake : Bool) (b : Vector Byte 16) : Except Reject Instr :=
  let p := decodePacket cfg b
  match classify p with
  | (.reserved, _) => .error .reservedHeader
  | (.sync, _) =>
    if p = pSync then .ok (if handshake then .runHshake else .sync) else .error .fieldNotZero
  | (.setreg, badWidth) =>
    if badWidth then .error .badWidth
    else if p = pSetreg p.address p.type p.data then .ok (.setreg p.address p.type p.data)
    else .error .fieldNotZero
  | (.dlblk, _) =>
    if p.endFlag ≠ 0 then .error .badEnd
    else if p.length.toNat < 1 ∨ blockMax < p.length.toNat then .error .badLength
    else if p = pDlblk p.address p.length then .ok (.downloadDlblk p.address p.length)
    else .error .fieldNotZero
  | (.run, _) =>
    if p = pRun p.address then .ok (.run p.address) else .error .fieldNotZero

/-- The instruction a command descriptor is (R90, R91): every descriptor is one. -/
def decodeCommandRow (d : Descriptor) : Instr :=
  if d.op = opSync then .cmdSync
  else if d.op = opSetreg then .cmdSetreg d.addr d.width d.value d.ign
  else if d.op = opDownload then .cmdDownload d.addr d.len
  else if d.op = opRun then .cmdRun d.addr
  else .cmdReserved (d.op.extractLsb' 0 2)

/-- The instruction 4 received bytes are, if they are one of the five response words (R89). -/
def decodeResponseRow (cfg : Config) (r : Vector Byte 4) : Except Reject Instr :=
  let w := wordOfResponse cfg r
  if w = magicSync then .ok .respSyncOk
  else if w = magicAck then .ok .respAck
  else if w = magicAck2 then .ok .respAck2
  else if w = magicRunA then .ok .respRunA
  else if w = magicRunB then .ok .respRunB
  else .error .notAResponse

/-- The decoder of all three formats. -/
def decode (cfg : Config) (handshake : Bool) : Wire → Except Reject Instr
  | .command d => .ok (decodeCommandRow d)
  | .packet b => decodePacketRow cfg handshake b
  | .response r => decodeResponseRow cfg r

/-- The decoder on a byte string, first byte first: 16 bytes are a packet (R81), 4 a response word (R89). -/
def decodeBytes (cfg : Config) (handshake : Bool) (bs : List Byte) : Except Reject Instr :=
  if bs.length = 16 then decode cfg handshake (.packet (Vector.ofFn fun k => bs.getD k 0))
  else if bs.length = 4 then decode cfg handshake (.response (Vector.ofFn fun k => bs.getD k 0))
  else .error .noSuchFormat

/-! ### The encoder -/

/-- A descriptor whose unused operand registers hold 0. -/
def descriptorOf (op : BitVec 3) : Descriptor :=
  { op := op, addr := 0, width := 0, value := 0, len := 0, ign := false }

/-- The encoder, from R86, R89, R90 and R91. -/
def encode (cfg : Config) : Instr → Wire
  | .sync => .packet (encodePacket cfg pSync)
  | .setreg addr width value => .packet (encodePacket cfg (pSetreg addr width value))
  | .downloadDlblk addr len => .packet (encodePacket cfg (pDlblk addr len))
  | .run addr => .packet (encodePacket cfg (pRun addr))
  | .runHshake => .packet (encodePacket cfg pSync)
  | .cmdSync => .command (descriptorOf opSync)
  | .cmdSetreg addr width value ign =>
    .command { descriptorOf opSetreg with addr := addr, width := width, value := value, ign := ign }
  | .cmdDownload addr len => .command { descriptorOf opDownload with addr := addr, len := len }
  | .cmdRun addr => .command { descriptorOf opRun with addr := addr }
  | .cmdReserved x => .command (descriptorOf ((1 : BitVec 1) ++ x))
  | .respSyncOk => .response (responseOfWord cfg magicSync)
  | .respAck => .response (responseOfWord cfg magicAck)
  | .respAck2 => .response (responseOfWord cfg magicAck2)
  | .respRunA => .response (responseOfWord cfg magicRunA)
  | .respRunB => .response (responseOfWord cfg magicRunB)

/-- Whether the instruction is sent in RUN's second exchange: what tells P_HSHAKE from P_SYNC (R86). -/
def Instr.inHandshake : Instr → Bool
  | .runHshake => true
  | _ => false

/-! ### Words of opcode_table.json -/

/-- Byte `k` of `n`, first byte first, of a number the table prints in wire order, `b[0]` leftmost (R93). -/
def wireByte (n w k : Nat) : Byte := BitVec.ofNat 8 (w / 2 ^ (8 * (n - 1 - k)))

/-- What a table word is written in (R93): up to 8 bits are CMD_OP3, with every operand register 0; 32 bits are RESP32 and
128 bits PACKET128, in wire order with `b[0]` leftmost, under the default parameters (log 18). -/
def wireOfTableWord (nbits w : Nat) : Option Wire :=
  if nbits ≤ 8 then if w < 8 then some (.command (descriptorOf (BitVec.ofNat 3 w))) else none
  else if nbits = 32 then
    some (.response #v[wireByte 4 w 0, wireByte 4 w 1, wireByte 4 w 2, wireByte 4 w 3])
  else if nbits = 128 then some (.packet (Vector.ofFn fun k => wireByte 16 w k))
  else none

/-- What the decoder reads from a word of opcode_table.json. -/
def decodeTableWord (nbits w : Nat) : Option Instr :=
  (wireOfTableWord nbits w).bind fun b => (decode Config.atReset false b).toOption

end Sys2Proof
end

