-- ==== Sys2Proof/Machine/State.lean ====
section
/-! DEFINITION. The state of SBM-WPC: every register of 10_state.md, the byte streams of 20_memory.md rule R51, the channel's
answers, the sequencer of 44_pseudo_ops.md, and the schedule that says which agent moves next. All of it plain data. -/

namespace Sys2Proof.Machine

/-- `phase` (R23): what the engine is doing. -/
inductive Phase where
  | idle
  | txHdr
  | rxWord
  | txPay
deriving DecidableEq, Repr

/-- The result kinds of R210; their codes are `ResKind.code`. -/
inductive ResKind where
  | ok
  | timeout
  | protocolMismatch
  | invalidWidth
  | noEntryAddress
  | sourceUnavailable
  | transportError
  | notSynced
  | illegalCommand
deriving DecidableEq, Repr

/-- The result record `res_*` (R27, R221). -/
structure Result where
  kind : ResKind
  ignored : Bool
  step : BitVec 1
  nobs : BitVec 2
  obs0 : Word
  obs1 : Word
  addr : Word
  offset : Word
deriving DecidableEq, Repr

/-- What the channel does with a byte offered to it (R140, D33): it accepts it, signals `tx_err`, or does neither. -/
inductive TxReply where
  | accept
  | error
  | stall
deriving DecidableEq, Repr

/-- A command of the sequencer's list (R92). A download's `image` is what opening its file gave: its bytes, or nothing where
it cannot be opened (R196). `run none` is `run()` (R192). -/
inductive SeqOp where
  | sync
  | setRegister (addr : Word) (width : Byte) (value : Word)
  | download (image : Option (List Byte)) (addr : Word)
  | run (addr : Option Word)
  | setBaud (rate : Nat)
  | setup
deriving DecidableEq, Repr

/-- One action of SEQ in the expansion of a command: connect a file to the payload port (R196), issue an engine command
(R190), set the channel's own baud rate (R193). -/
inductive SeqAct where
  | connect (image : Option (List Byte))
  | issue (d : Descriptor)
  | setBaudRate (rate : Nat)
deriving DecidableEq, Repr

/-- One move of one agent (R3). -/
inductive Move where
  /-- ENG takes its turn: all the bytes it can move now (log 3). -/
  | eng
  /-- ENG takes one byte of the word it reads, and no more (R132, log 3). -/
  | engByte
  /-- SEQ takes its turn in its program (44_pseudo_ops.md). -/
  | seq
  /-- TMR: one tick (R133). -/
  | tick
  /-- DEV appends a byte to `rxq` (R33). -/
  | devSend (b : Byte)
  /-- DEV removes the front byte of `txq` (R33). -/
  | devTake
  /-- SEQ writes the operand registers `cmd_*`, at any time (R33, R255). -/
  | operands (d : Descriptor)
  /-- SEQ raises `cmd_valid` (R150). -/
  | request
  /-- SEQ is given a new command list (R190). A command still outstanding is waited for first (log 33). -/
  | program (ops : List SeqOp)
  /-- The channel's answers to the bytes offered from now on (R140). -/
  | channel (replies : List TxReply) (rest : TxReply)
  /-- SRC delivers more bytes, says whether it has an image, and whether it fails or ends after the bytes delivered (R174). -/
  | source (avail : Bool) (bytes : List Byte) (err : Bool)
  /-- The surroundings raise the reset event (R240, R241). -/
  | reset
deriving DecidableEq, Repr

/-- Reasons for the machine to stop with a fault. There are none: the spec ends every failure as a result of the command
(R9, R210), and a wait without end is a machine that goes on waiting (R252). -/
inductive Fault
deriving DecidableEq, Repr

/-- Reasons for a step to be refused. -/
inductive Refusal where
  /-- Raised by `exec` for an instruction without a meaning yet. Safe. No arm raises it. -/
  | notModelled (mnemonic : String)
  /-- Raised by SEQ's turn for `setBaud(rate)` with `rate` below 100, to which the spec gives no meaning (R193 b, U14:
  `refuse`). Safe: nothing is sent, and no claim about it can be proved. -/
  | baudRateBelow100 (rate : Nat)
deriving DecidableEq, Repr

/-- The state. -/
structure State where
  /-- The parameters; no step writes them (R28). -/
  cfg : Config
  /-- `synced` (R20). -/
  synced : Bool
  /-- `last_entry_valid` (R21). -/
  lastEntryValid : Bool
  /-- `last_entry_addr` (R21). -/
  lastEntryAddr : Word
  /-- The operand registers `cmd_*` (R22). -/
  cmd : Descriptor
  /-- The request `cmd_valid` (R33, R150). -/
  cmdValid : Bool
  /-- `phase` (R23). -/
  phase : Phase
  /-- The latched descriptor `lat_*` (R23, R33). -/
  lat : Descriptor
  /-- `step` (R23): which exchange is in progress. -/
  step : BitVec 1
  /-- `tx_idx` (R23): how many bytes of `txbuf` the channel has accepted. -/
  txIdx : Nat
  /-- `rx_idx` (R23): how many bytes of the current response word have been taken. -/
  rxIdx : Nat
  /-- `txbuf` (R24). -/
  txbuf : Vector Byte 16
  /-- `rxbuf` (R24), the first byte received at index 0. -/
  rxbuf : Vector Byte 4
  /-- `obs0` (R24). -/
  obs0 : Word
  /-- `obs1` (R24). -/
  obs1 : Word
  /-- `guard_cnt` (R25). -/
  guardCnt : Nat
  /-- `dl_base` (R26). -/
  dlBase : Word
  /-- `dl_total` (R26). -/
  dlTotal : Word
  /-- `dl_offset` (R26). -/
  dlOffset : Word
  /-- `blk_len` (R26). -/
  blkLen : Nat
  /-- `pay_idx` (R26). -/
  payIdx : Nat
  /-- `res_valid` (R27). -/
  resValid : Bool
  /-- The result record `res_*` (R27). -/
  res : Result
  /-- `prog_valid` (R29). -/
  progValid : Bool
  /-- `prog_offset` (R29). -/
  progOffset : Word
  /-- `prog_total` (R29). -/
  progTotal : Word
  /-- The transmit stream (R51): bytes ENG has written and DEV has not yet consumed, oldest first. -/
  txq : List Byte
  /-- The receive stream (R51): bytes DEV has sent and ENG has not yet taken, oldest first. -/
  rxq : List Byte
  /-- The payload stream (R51): bytes SRC has ready, in file order. -/
  plq : List Byte
  /-- `pl_avail` (R174): SRC has an image. -/
  plAvail : Bool
  /-- `pl_err` (R174): SRC fails or ends after the bytes of `plq`. -/
  plErr : Bool
  /-- The channel's answers to the next bytes offered, in order (R140). -/
  txReplies : List TxReply
  /-- The channel's answer to every byte offered after those (R140, R252). -/
  txRest : TxReply
  /-- The channel's own baud rate, once `setBaudRate` has set it (R193, R227). -/
  chanBaud : Option Nat
  /-- SEQ: the commands of the list not yet begun (R190). -/
  seqQueue : List SeqOp
  /-- SEQ: the actions of the current command still to do (R191 to R196). -/
  seqActs : List SeqAct
  /-- SEQ: an engine command is outstanding (R190). -/
  seqWait : Bool
  /-- SEQ: the failure that stopped the queue (R190). -/
  seqStop : Option ResKind
  /-- The moves still to come (log 2). -/
  sched : List Move
  /-- How many free values have been drawn (log 10). The model's own. -/
  freeCtr : Nat
deriving DecidableEq, Repr

/-- A descriptor of zeros. -/
def zeroDescriptor : Descriptor := descriptorOf 0

/-- The result record named for reset (log 4). -/
def zeroResult : Result :=
  { kind := .ok, ignored := false, step := 0, nobs := 0, obs0 := 0, obs1 := 0, addr := 0, offset := 0 }

/-- The machine right after reset: `synced`, `last_entry_valid`, `phase`, `res_valid` and `prog_valid` as R31 gives them, every
register R31 leaves unspecified 0 (log 4), the streams empty and the channel open (R243, log 5). -/
def State.reset : State where
  cfg := Config.atReset
  synced := false
  lastEntryValid := false
  lastEntryAddr := 0
  cmd := zeroDescriptor
  cmdValid := false
  phase := .idle
  lat := zeroDescriptor
  step := 0
  txIdx := 0
  rxIdx := 0
  txbuf := Vector.replicate 16 0
  rxbuf := Vector.replicate 4 0
  obs0 := 0
  obs1 := 0
  guardCnt := 0
  dlBase := 0
  dlTotal := 0
  dlOffset := 0
  blkLen := 0
  payIdx := 0
  resValid := false
  res := zeroResult
  progValid := false
  progOffset := 0
  progTotal := 0
  txq := []
  rxq := []
  plq := []
  plAvail := false
  plErr := false
  txReplies := []
  txRest := .accept
  chanBaud := none
  seqQueue := []
  seqActs := []
  seqWait := false
  seqStop := none
  sched := []
  freeCtr := 0

end Sys2Proof.Machine
end

