-- ==== Sys2Proof/Machine/Operands.lean ====
section
/-! DEFINITION. How each computed operand gets its value (30_encoding.md rule R85): RUN's target, a block's length and address, the
setup and baud operands, and the descriptor a command latches. -/

namespace Sys2Proof.Machine

/-- RUN's jump target (R153): the operand, or `last_entry_addr` where the operand is the sentinel 0; none where there is
neither. `Some(0)` is present (D30). -/
def runTarget (addr : Word) (s : State) : Option Word :=
  if addr ≠ 0 then some addr else if s.lastEntryValid then some s.lastEntryAddr else none

/-- A block's byte count (R171): `min(4096, dl_total - dl_offset)`. -/
def blockLen (total offset : Word) : Nat := min blockMax (total.toNat - offset.toNat)

/-- A block header's address (R171): `(dl_base + dl_offset) mod 2^32`. -/
def blockAddr (base offset : Word) : Word := base + offset

/-- The divisor SETBAUD writes (R193): `(baudRate / 100) - 1`, floor division (D21); beyond 32 bits the low 32 (log 21). -/
def baudDivisor (rate : Nat) : Word := BitVec.ofNat 32 (rate / 100 - 1)

/-- The descriptor of an engine command SETREG. -/
def setregDescriptor (addr : Word) (width : Byte) (value : Word) (ign : Bool) : Descriptor :=
  { descriptorOf opSetreg with addr := addr, width := width, value := value, ign := ign }

/-- The packet the engine sends in the exchange in progress (R86): a function of the latched descriptor, `step`, and the
registers a rule computes an operand from. -/
def currentPacket (s : State) : Packet :=
  if s.lat.op = opSetreg then pSetreg s.lat.addr s.lat.width s.lat.value
  else if s.lat.op = opDownload then pDlblk s.res.addr (BitVec.ofNat 32 s.blkLen)
  else if s.lat.op = opRun then (if s.step = 0 then pRun s.res.addr else pSync)
  else pSync

/-- Whether the exchange in progress is RUN's second (R153). -/
def inHandshake (s : State) : Bool := s.lat.op == opRun && s.step == 1

end Sys2Proof.Machine
end

