-- ==== Sys2Proof/Machine/Flags.lean ====
section
/-! DEFINITION. The result and status registers: `busy`, the codes of `res_kind`, and what completion writes into each register of
the result record (60_exceptions.md rules R210 and R221, 10_state.md rule R27). -/

namespace Sys2Proof.Machine

/-- `busy` (R27): 1 exactly while `phase` is not IDLE. -/
def State.busy (s : State) : Bool := s.phase != .idle

/-- The 4-bit code of a result kind (R210, D15). -/
def ResKind.code : ResKind → BitVec 4
  | .ok => 0
  | .timeout => 1
  | .protocolMismatch => 2
  | .invalidWidth => 3
  | .noEntryAddress => 4
  | .sourceUnavailable => 5
  | .transportError => 6
  | .notSynced => 7
  | .illegalCommand => 8

/-- `res_kind` as SEQ reads it (R27). -/
def State.resKindCode (s : State) : BitVec 4 := s.res.kind.code

/-- `res_obs0` (R221): the first word read, a free value where none was (log 10). -/
def resObs0 (nobs : Nat) (s : State) : Word :=
  if 1 ≤ nobs then s.obs0 else Config.freeWord s.freeCtr

/-- `res_obs1` (R221): the second word read, a free value where there was none (log 10). -/
def resObs1 (nobs : Nat) (s : State) : Word :=
  if 2 ≤ nobs then s.obs1 else Config.freeWord (s.freeCtr + 1)

/-- `res_addr` at the end of a command that did its I/O (R221): SETREG's address; the target and the block address that RUN
and DOWNLOAD wrote on their way (R153, R171); a free value for SYNC (log 10). -/
def resAddr (s : State) : Word :=
  if s.lat.op = opSetreg then s.lat.addr
  else if s.lat.op = opDownload ∨ s.lat.op = opRun then s.res.addr
  else Config.freeWord (s.freeCtr + 2)

/-- `res_offset` at the end of a command that did its I/O (R221): `dl_offset` for DOWNLOAD, 0 for the others. -/
def resOffset (s : State) : Word := if s.lat.op = opDownload then s.dlOffset else 0

/-- `res_addr` of a command that ends at acceptance (R221): `lat_addr` for InvalidWidth, a free value for the others (log 10,
log 11). -/
def resAddrAtAcceptance (kind : ResKind) (s : State) : Word :=
  if kind = .invalidWidth then s.lat.addr else Config.freeWord (s.freeCtr + 2)

/-- How many whole words the exchange in progress has read when a read of it comes up short (R211, R221): SETREG's first word
where its second read is short, otherwise none. -/
def wordsRead (s : State) : Nat := if s.lat.op = opSetreg then s.step.toNat else 0

end Sys2Proof.Machine
end

