-- ==== Sys2Proof/Machine/Ops.lean ====
section
/-! DEFINITION. The named operations of the engine: completion (42_session_ops.md rule R154), which stands where a processor takes an
exception, acceptance (R150), the send step and the guarded read (41_guard.md), the exchanges' continuations (R151 to R153,
R171), and the payload of a block. Each is total on states. -/

namespace Sys2Proof.Machine

/-! ### Completion -/

/-- Completion of a command that did its I/O (R154, R221): the result record, `res_valid`, and back to IDLE. Nothing else of
the block changes. `nobs` is how many whole words the last exchange read. -/
def complete (kind : ResKind) (ignored : Bool) (nobs : Nat) (s : State) : State :=
  { s with
    res :=
      { kind := kind, ignored := ignored, step := s.step, nobs := BitVec.ofNat 2 nobs,
        obs0 := resObs0 nobs s, obs1 := resObs1 nobs s, addr := resAddr s, offset := resOffset s }
    resValid := true
    phase := .idle
    freeCtr := s.freeCtr + 3 }

/-- Completion of a command that ends at acceptance, with no I/O (R150 steps 1 to 4, R154, R221). -/
def completeAtAcceptance (kind : ResKind) (s : State) : State :=
  { s with
    res :=
      { kind := kind, ignored := false, step := 0, nobs := 0,
        obs0 := resObs0 0 s, obs1 := resObs1 0 s, addr := resAddrAtAcceptance kind s, offset := 0 }
    resValid := true
    phase := .idle
    freeCtr := s.freeCtr + 3 }

/-! ### The send step -/

/-- The first three assignments of SEND (R140): the packet is encoded into `txbuf` and TxWrite is about to begin. -/
def beginSend (p : Packet) (s : State) : State :=
  { s with txbuf := encodePacket s.cfg p, txIdx := 0, phase := .txHdr }

/-- How an attempt to write bytes to the channel came out (R140). -/
inductive TxEnd where
  | done
  | error
  | stall
deriving DecidableEq, Repr

/-- What an attempt to write bytes leaves: the bytes accepted, the channel's answers still to come, how it came out. -/
structure TxOutcome where
  sent : List Byte
  replies : List TxReply
  how : TxEnd
deriving DecidableEq, Repr

/-- Offers the bytes to the channel one after another (R140): each is accepted, or ends the attempt with `tx_err`, or is not
taken now. The answers are those of the list, and then `rest` for ever. -/
def txOffer : List Byte → List TxReply → TxReply → TxOutcome
  | [], replies, _ => { sent := [], replies := replies, how := .done }
  | b :: bs, replies, rest =>
    match replies.headD rest with
    | .accept =>
      let r := txOffer bs replies.tail rest
      { r with sent := b :: r.sent }
    | .error => { sent := [], replies := replies.tail, how := .error }
    | .stall => { sent := [], replies := replies.tail, how := .stall }

/-- Arming a read (R131): one guard for the 4-byte word. -/
def armRead (s : State) : State :=
  { s with phase := .rxWord, rxIdx := 0, guardCnt := s.cfg.timeoutTicks }

/-- TxWrite of `txbuf` from `tx_idx` on (R140): as far as the channel takes it. When the last byte is accepted the read is armed
(R131); `tx_err` ends the command with TransportError (R216); a channel that does neither leaves the engine waiting (R252). -/
def txWrite (s : State) : State :=
  let r := txOffer (s.txbuf.toList.drop s.txIdx) s.txReplies s.txRest
  let s' := { s with txq := s.txq ++ r.sent, txIdx := s.txIdx + r.sent.length, txReplies := r.replies }
  match r.how with
  | .done => armRead s'
  | .error => complete .transportError false 0 s'
  | .stall => s'

/-- SEND(p) (R140): `txbuf` holds the packet, and TxWrite goes on from `tx_idx` where the engine is already sending, from 0
where it begins (log 16). -/
def sendPacket (p : Packet) (s : State) : State :=
  txWrite
    { s with
      txbuf := encodePacket s.cfg p
      txIdx := if s.phase = .txHdr then s.txIdx else 0
      phase := .txHdr }

/-! ### Acceptance -/

/-- Acceptance of a descriptor (R33, R150): it is latched, the request is taken, `res_valid` and `step` are cleared; `obs0` and
`obs1` are not written. -/
def accept (d : Descriptor) (s : State) : State :=
  { s with lat := d, cmdValid := false, resValid := false, step := 0 }

/-- A command is accepted only in IDLE; while busy it waits (R33, R246). -/
def whenIdle (f : State → State) (s : State) : State := if s.phase = .idle then f s else s

/-- Step 3 of acceptance (R150, R217): every command but SYNC is refused while `synced` is 0. -/
def whenSynced (f : State → State) (s : State) : State :=
  if s.synced then f s else completeAtAcceptance .notSynced s

/-! ### DOWNLOAD's loop -/

/-- The head of DLBLK (R171): the block's length and address, and its header on the way out. -/
def beginBlock (s : State) : State :=
  let n := blockLen s.dlTotal s.dlOffset
  let a := blockAddr s.dlBase s.dlOffset
  beginSend (pDlblk a (BitVec.ofNat 32 n)) { s with blkLen := n, res := { s.res with addr := a } }

/-- The end of DOWNLOAD (R170): on full success `last_entry` is the address the command was given. -/
def finishDownload (nobs : Nat) (s : State) : State :=
  complete .ok false nobs { s with lastEntryValid := true, lastEntryAddr := s.lat.addr }

/-- The test of DOWNLOAD's loop (R170): another block, or the end. -/
def downloadLoop (nobs : Nat) (s : State) : State :=
  if s.dlOffset.toNat < s.dlTotal.toNat then beginBlock s else finishDownload nobs s

/-- The start of DOWNLOAD after its checks (R170): `res_addr` is `dl_base` until a header is built (R221). -/
def startDownload (s : State) : State :=
  downloadLoop 0
    { s with dlBase := s.lat.addr, dlTotal := s.lat.len, dlOffset := 0, res := { s.res with addr := s.lat.addr } }

/-- The end of a block (R171, R173): `dl_offset` advances, one progress report, and the loop goes on. -/
def finishBlock (s : State) : State :=
  let off := s.dlOffset + BitVec.ofNat 32 s.blkLen
  downloadLoop 1 { s with dlOffset := off, progOffset := off, progTotal := s.dlTotal, progValid := true }

/-- The payload of a block (R171, R174): bytes pass from SRC to the channel one at a time, as far as both go. A byte refused with
`tx_err` has been read from SRC; a byte not taken stays there (log 13). SRC's end or failure before `blk_len` bytes is
SourceUnavailable (R215); a source that has no byte yet leaves the engine waiting (R258). -/
def payTurn (s : State) : State :=
  let want := s.blkLen - s.payIdx
  let ready := s.plq.take want
  let r := txOffer ready s.txReplies s.txRest
  let n := r.sent.length
  let s' := { s with
    txq := s.txq ++ r.sent, payIdx := s.payIdx + n, txReplies := r.replies
    plq := s.plq.drop (if r.how = .error then n + 1 else n) }
  match r.how with
  | .done =>
    if want ≤ ready.length then finishBlock s'
    else if s.plErr then complete .sourceUnavailable false 1 s'
    else s'
  | .error => complete .transportError false 1 s'
  | .stall => s'

/-! ### The guarded read -/

/-- Byte events (R132) repeated until `rxq` is empty or the word is complete: the rest of `rxq`, `rx_idx`, `rxbuf`. -/
def takeBytes : List Byte → Nat → Vector Byte 4 → List Byte × Nat × Vector Byte 4
  | [], i, r => ([], i, r)
  | c :: q, i, r => if i < 4 then takeBytes q (i + 1) (r.setIfInBounds i c) else (c :: q, i, r)

/-- The engine takes what `rxq` holds, up to the end of the word (R132, R141). That it takes all of it in one turn is log 3; one
byte event alone is `takeByte`. -/
def takeAvailable (s : State) : State :=
  let t := takeBytes s.rxq s.rxIdx s.rxbuf
  { s with rxq := t.1, rxIdx := t.2.1, rxbuf := t.2.2 }

/-- One byte event (R132): the front byte of `rxq`, if there is one, becomes the next byte of the word. For a word that lacks
more than one byte. -/
def takeByte (s : State) : State :=
  let t := takeBytes (s.rxq.take 1) s.rxIdx s.rxbuf
  { s with rxq := s.rxq.drop 1, rxIdx := t.2.1, rxbuf := t.2.2 }

/-- Whether `rxq` holds enough to complete the word being read (R132, R134). -/
def wordReady (s : State) : Bool := s.phase == .rxWord && decide (4 ≤ s.rxIdx + s.rxq.length)

/-- The 4 bytes of the word that `wordReady` completes. -/
def readyBytes (s : State) : Vector Byte 4 := (takeAvailable s).rxbuf

/-- SYNC's compare (R151): success sets `synced`. -/
def syncWord (w : Word) (s : State) : State :=
  if w = magicSync then complete .ok false 1 { s with obs0 := w, synced := true }
  else complete .protocolMismatch false 1 { s with obs0 := w }

/-- SETREG's two words (R152): the first is kept and the second read is armed, whatever its value; both are compared after the
second, and `lat_ign` downgrades a mismatch (R219). -/
def setregWord (w : Word) (s : State) : State :=
  if s.step = 0 then armRead { s with obs0 := w, step := 1 }
  else if s.obs0 = magicAck ∧ w = magicAck2 then complete .ok false 2 { s with obs1 := w }
  else if s.lat.ign then complete .ok true 2 { s with obs1 := w }
  else complete .protocolMismatch false 2 { s with obs1 := w }

/-- A block header's ack (R171): only then the payload. -/
def downloadWord (w : Word) (s : State) : State :=
  if w = magicAck then { s with obs0 := w, phase := .txPay, payIdx := 0 }
  else complete .protocolMismatch false 1 { s with obs0 := w }

/-- RUN's two exchanges (R153): the handshake is sent only when the first word matched. -/
def runWord (w : Word) (s : State) : State :=
  if s.step = 0 then
    if w = magicAck then beginSend pSync { s with obs0 := w, step := 1 }
    else complete .protocolMismatch false 1 { s with obs0 := w }
  else if w = magicRunA ∨ w = magicRunB then complete .ok false 1 { s with obs0 := w }
  else complete .protocolMismatch false 1 { s with obs0 := w }

/-- A word has been read (R137): the compare and the continuation of the command in progress. A latched code 4 to 7 never gets
here (R218); such a state ends IllegalCommand (log 17). -/
def afterWord (w : Word) (s : State) : State :=
  if s.lat.op = opSync then syncWord w s
  else if s.lat.op = opSetreg then setregWord w s
  else if s.lat.op = opDownload then downloadWord w s
  else if s.lat.op = opRun then runWord w s
  else completeAtAcceptance .illegalCommand s

/-- The response word `r` completes the read in progress (R132): the bytes of it not yet taken leave `rxq`, in one turn (log 3),
and the command goes on. Outside a read the bytes wait in `rxq`, neither lost nor seen (R141). -/
def receive (r : Vector Byte 4) (s : State) : State :=
  if s.phase = .rxWord then
    afterWord (wordOfResponse s.cfg r)
      { s with rxq := s.rxq.drop (4 - s.rxIdx), rxIdx := 4, rxbuf := r }
  else s

/-- The read came up short (R130, R135, R211, R219): Timeout, or success where SETREG was told to ignore it. -/
def short (s : State) : State :=
  if s.lat.op = opSetreg ∧ s.lat.ign = true then complete .ok true (wordsRead s) s
  else complete .timeout false (wordsRead s) s

/-- A tick that finds the word incomplete (R133, R134): what `rxq` holds is taken first, then the guard counts, and at 0 the
read is short. Outside a read a tick has no effect. -/
def countTick (s : State) : State :=
  if s.phase = .rxWord then
    let s' := takeAvailable s
    let g := s'.guardCnt - 1
    if g = 0 then short { s' with guardCnt := 0 } else { s' with guardCnt := g }
  else s

/-! ### Reset -/

/-- The reset event (R240, R241, R242): every register of the block as State.reset has it, between any two moves and with no
result; the streams, the channel, SRC, SEQ and the schedule are not touched (log 30). A SEQ that waits for the command abandoned
goes on waiting, since no result of it comes: the spec does not say what SEQ does (log 33). -/
def resetBlock (s : State) : State :=
  { State.reset with
    cfg := s.cfg, txq := s.txq, rxq := s.rxq, plq := s.plq, plAvail := s.plAvail, plErr := s.plErr
    txReplies := s.txReplies, txRest := s.txRest, chanBaud := s.chanBaud
    seqQueue := s.seqQueue, seqActs := s.seqActs, seqWait := s.seqWait, seqStop := s.seqStop
    sched := s.sched, freeCtr := s.freeCtr }

end Sys2Proof.Machine
end

