-- ==== Sys2Proof/Machine/Command.lean ====
section
/-! DEFINITION. The meanings of the command rows: acceptance of a descriptor, in the order of 42_session_ops.md rule R150
(IllegalCommand, the argument check, NotSynced, SourceUnavailable), and the beginning of the command's first exchange. -/

namespace Sys2Proof.Machine

/-- CMD.SYNC (R150, R151): the only command accepted while `synced` is 0. -/
def execCmdSync (s : State) : Host.Outcome State Fault Refusal :=
  .next (whenIdle (fun s => beginSend pSync (accept { s.cmd with op := opSync } s)) s)

/-- CMD.SETREG (R150, R152): InvalidWidth before NotSynced (D29), neither with any I/O. -/
def execCmdSetreg (addr : Word) (width : Byte) (value : Word) (ign : Bool) (s : State) :
    Host.Outcome State Fault Refusal :=
  .next (whenIdle (fun s =>
    let s := accept { s.cmd with op := opSetreg, addr := addr, width := width, value := value, ign := ign } s
    if legalWidth width then whenSynced (beginSend (pSetreg addr width value)) s
    else completeAtAcceptance .invalidWidth s) s)

/-- CMD.DOWNLOAD (R150, R170): NotSynced, then SourceUnavailable where SRC reports no image (R174), then the first block. -/
def execCmdDownload (addr : Word) (len : Word) (s : State) : Host.Outcome State Fault Refusal :=
  .next (whenIdle (fun s =>
    let s := accept { s.cmd with op := opDownload, addr := addr, len := len } s
    whenSynced (fun s => if s.plAvail then startDownload s else completeAtAcceptance .sourceUnavailable s) s) s)

/-- CMD.RUN (R150, R153): the target is resolved first, NoEntryAddress before NotSynced (D29); `res_addr` is the target. -/
def execCmdRun (addr : Word) (s : State) : Host.Outcome State Fault Refusal :=
  .next (whenIdle (fun s =>
    let s := accept { s.cmd with op := opRun, addr := addr } s
    match runTarget addr s with
    | none => completeAtAcceptance .noEntryAddress s
    | some t =>
      whenSynced (fun s => beginSend (pRun t) { s with res := { s.res with addr := t } }) s) s)

/-- CMD.RESERVED (R91, R218): `cmd_op` 4 to 7 ends at acceptance with IllegalCommand. -/
def execCmdReserved (x : BitVec 2) (s : State) : Host.Outcome State Fault Refusal :=
  .next (whenIdle (fun s =>
    completeAtAcceptance .illegalCommand (accept { s.cmd with op := (1 : BitVec 1) ++ x } s)) s)

end Sys2Proof.Machine
end

