-- ==== Sys2Proof/Machine/PacketSend.lean ====
section
/-! DEFINITION. The meanings of the packet rows: SEND of the packet (41_guard.md rule R140), which arms the read of its answer
(R131), or ends in TransportError (R216), or waits for the channel (R252). -/

namespace Sys2Proof.Machine

/-- SYNC: P_SYNC (R86, R151). -/
def execSync (s : State) : Host.Outcome State Fault Refusal := .next (sendPacket pSync s)

/-- SETREG: P_SETREG (R86, R152). It asks the device for DevWrite(addr, width / 8, value), which is outside the block (R8). -/
def execSetreg (addr : Word) (width : Byte) (value : Word) (s : State) : Host.Outcome State Fault Refusal :=
  .next (sendPacket (pSetreg addr width value) s)

/-- DOWNLOAD.DLBLK: P_DLBLK, a block's header (R86, R171). -/
def execDownloadDlblk (addr : Word) (len : Word) (s : State) : Host.Outcome State Fault Refusal :=
  .next (sendPacket (pDlblk addr len) s)

/-- RUN: P_RUN (R86, R153). It asks the device to jump to `addr`, which is outside the block (R8). -/
def execRun (addr : Word) (s : State) : Host.Outcome State Fault Refusal := .next (sendPacket (pRun addr) s)

/-- RUN.HSHAKE: P_HSHAKE, RUN's second exchange (R86, R153, D12). -/
def execRunHshake (s : State) : Host.Outcome State Fault Refusal := .next (sendPacket pSync s)

end Sys2Proof.Machine
end

