-- ==== Sys2Proof/Machine/Response.lean ====
section
/-! DEFINITION. The meanings of the response rows: the word completes the read in progress (41_guard.md rule R132), is compared
(R137), and the command goes on or ends (R151 to R153, R171). Which command is in progress, and in which exchange, decides. -/

namespace Sys2Proof.Machine

/-- RESP.SYNC_OK: 0xf0f0f0f0 (R89). -/
def execRespSyncOk (s : State) : Host.Outcome State Fault Refusal :=
  .next (receive (responseOfWord s.cfg magicSync) s)

/-- RESP.ACK: 0x56787856 (R89). -/
def execRespAck (s : State) : Host.Outcome State Fault Refusal :=
  .next (receive (responseOfWord s.cfg magicAck) s)

/-- RESP.ACK2: 0x128a8a12 (R89). -/
def execRespAck2 (s : State) : Host.Outcome State Fault Refusal :=
  .next (receive (responseOfWord s.cfg magicAck2) s)

/-- RESP.RUN_A: 0x08888888 (R89). -/
def execRespRunA (s : State) : Host.Outcome State Fault Refusal :=
  .next (receive (responseOfWord s.cfg magicRunA) s)

/-- RESP.RUN_B: 0x88888888 (R89). -/
def execRespRunB (s : State) : Host.Outcome State Fault Refusal :=
  .next (receive (responseOfWord s.cfg magicRunB) s)

end Sys2Proof.Machine
end

