-- ==== Sys2Proof/Machine/Dispatch.lean ====
section
/-! DEFINITION. The dispatch: one arm per row of opcode_table.json. -/

namespace Sys2Proof.Machine

def exec (i : Instr) (s : State) : Host.Outcome State Fault Refusal :=
  match i with
  | .sync => Sys2Proof.Machine.execSync s
  | .setreg addr width value => Sys2Proof.Machine.execSetreg addr width value s
  | .downloadDlblk addr len => Sys2Proof.Machine.execDownloadDlblk addr len s
  | .run addr => Sys2Proof.Machine.execRun addr s
  | .runHshake => Sys2Proof.Machine.execRunHshake s
  | .cmdSync => Sys2Proof.Machine.execCmdSync s
  | .cmdSetreg addr width value ign => Sys2Proof.Machine.execCmdSetreg addr width value ign s
  | .cmdDownload addr len => Sys2Proof.Machine.execCmdDownload addr len s
  | .cmdRun addr => Sys2Proof.Machine.execCmdRun addr s
  | .cmdReserved x => Sys2Proof.Machine.execCmdReserved x s
  | .respSyncOk => Sys2Proof.Machine.execRespSyncOk s
  | .respAck => Sys2Proof.Machine.execRespAck s
  | .respAck2 => Sys2Proof.Machine.execRespAck2 s
  | .respRunA => Sys2Proof.Machine.execRespRunA s
  | .respRunB => Sys2Proof.Machine.execRespRunB s

end Sys2Proof.Machine
end

