-- ==== Sys2Proof/Machine/Sequencer.lean ====
section
/-! DEFINITION. SEQ, the external command sequencer: the expansion of each command of its list into engine commands and channel
calls, and its contract of issuing them one at a time and stopping at the first failure (44_pseudo_ops.md). -/

namespace Sys2Proof.Machine

/-- Issue SYNC. -/
def actSync : SeqAct := .issue (descriptorOf opSync)

/-- Issue RUN; `run()` is the sentinel 0 (R192). -/
def actRun (addr : Option Word) : SeqAct := .issue { descriptorOf opRun with addr := addr.getD 0 }

/-- The expansion of SETBAUD (R193): the divisor write, the FIFO-timeout write with its mismatch ignored, and only then the
channel's own rate. Defined for a rate of at least 100. -/
def expandSetBaud (cfg : Config) (rate : Nat) : List SeqAct :=
  [ .issue (setregDescriptor cfg.baudDivAddr 32 (baudDivisor rate) false),
    .issue (setregDescriptor cfg.fifoToAddr 32 cfg.fifoToValue true),
    .setBaudRate rate ]

/-- The expansion of SETUP (R194): one SETREG per entry, in order, mismatch ignored. -/
def expandSetup (cfg : Config) : List SeqAct :=
  cfg.setupTable.map fun e => .issue (setregDescriptor e.addr e.width e.value true)

/-- The expansion of a command of the list. Before `run`, and no other command here, an unsynced SEQ issues SYNC (R191); `set`
passes `ign` 0 (R195); `download` connects its file and issues DOWNLOAD with the file's size (R196), and where the file cannot be
opened with the length 0, which the spec leaves open (log 34). A length beyond 32 bits keeps its low 32 (log 21). -/
def expandOp (cfg : Config) (synced : Bool) : SeqOp → List SeqAct
  | .sync => [actSync]
  | .setRegister addr width value => [.issue (setregDescriptor addr width value false)]
  | .download image addr =>
    [ .connect image,
      .issue { descriptorOf opDownload with addr := addr, len := BitVec.ofNat 32 (image.getD []).length } ]
  | .run addr => if synced then [actRun addr] else [actSync, actRun addr]
  | .setBaud rate => expandSetBaud cfg rate
  | .setup => expandSetup cfg

/-- One action of SEQ. Connecting a file gives SRC its bytes and its end, or no image (R174, R196); issuing writes the operand
registers and raises `cmd_valid` (R150); setting the rate is the channel's `setBaudRate` (R227). -/
def doAct (a : SeqAct) (s : State) : State :=
  match a with
  | .connect image => { s with plAvail := image.isSome, plq := image.getD [], plErr := true }
  | .issue d => { s with cmd := d, cmdValid := true, seqWait := true }
  | .setBaudRate rate => { s with chanBaud := some rate }

/-- SEQ reads the result of the command it waits for (R190): it goes on after Ok, ignored or not, and stops the queue at anything
else. While there is no result it waits, and it takes the next result there is as its command's: after a reset that abandoned
the command that is the model's choice (log 33). -/
def readResult (s : State) : State :=
  if s.cmdValid = false ∧ s.busy = false ∧ s.resValid = true then
    if s.res.kind = .ok then { s with seqWait := false }
    else { s with seqWait := false, seqStop := some s.res.kind, seqActs := [] }
  else s

/-- The next command of the list is expanded (R190). `setBaud` below 100 has no meaning (R193 b). -/
def beginOp (op : SeqOp) (rest : List SeqOp) (s : State) : Host.Outcome State Fault Refusal :=
  match op with
  | .setBaud rate =>
    if rate < 100 then .refused (.baudRateBelow100 rate)
    else .next { s with seqQueue := rest, seqActs := expandSetBaud s.cfg rate }
  | _ => .next { s with seqQueue := rest, seqActs := expandOp s.cfg s.synced op }

/-- SEQ's turn (R190): wait for the outstanding command, else the next action, else the next command of the list; after a
failure, nothing. -/
def seqTurn (s : State) : Host.Outcome State Fault Refusal :=
  if s.seqStop.isSome then .next s
  else if s.seqWait then .next (readResult s)
  else
    match s.seqActs with
    | a :: rest => .next (doAct a { s with seqActs := rest })
    | [] =>
      match s.seqQueue with
      | op :: rest => beginOp op rest s
      | [] => .next s

end Sys2Proof.Machine
end

