-- ==== Sys2Proof/Machine/Turn.lean ====
section
/-! DEFINITION. How the next instruction is found, what the engine does where no row of the table stands, and each agent's move
(00_scope.md rule R3). The block fetches no instructions (10_state.md rule R23): the command port, `txbuf` and `rxq` stand in
their place (log 1). -/

namespace Sys2Proof.Machine

/-- The instruction the engine is about to run: the descriptor presented to an idle engine (R33), the packet a sending engine
holds in `txbuf` (R140), the response word that completes a read (R132). -/
def fetch (s : State) : Option Instr :=
  match s.phase with
  | .idle => if s.cmdValid then some (decodeCommandRow s.cmd) else none
  | .txHdr => (decodePacketRow s.cfg (inHandshake s) s.txbuf).toOption
  | .rxWord => if wordReady s then (decodeResponseRow s.cfg (readyBytes s)).toOption else none
  | .txPay => none

/-- What the engine does where no row stands: an idle engine does nothing (R230); a response word that is none of the five is
compared like any other (R137); an incomplete word has what arrived taken (R132); a payload goes out (R171). -/
def engineOther (s : State) : State :=
  match s.phase with
  | .idle => s
  | .txHdr => txWrite s
  | .rxWord => if wordReady s then receive (readyBytes s) s else takeAvailable s
  | .txPay => payTurn s

/-- ENG's turn. -/
def engineTurn (s : State) : Host.Outcome State Fault Refusal :=
  match fetch s with
  | some i => exec i s
  | none => .next (engineOther s)

/-- TMR's tick (R133, R134): where `rxq` completes the word the byte events come first and the tick is not counted. -/
def tickTurn (s : State) : Host.Outcome State Fault Refusal :=
  if wordReady s then engineTurn s else .next (countTick s)

/-- One byte event of ENG's (R132): the byte that completes the word is ENG's whole turn, an earlier one leaves the read going;
outside a read no byte is taken (R141). -/
def byteTurn (s : State) : Host.Outcome State Fault Refusal :=
  if s.phase = .rxWord then if s.rxIdx < 3 then .next (takeByte s) else engineTurn s else .next s

/-- Whether the engine has work: a command in progress, or one presented. -/
def engineHasWork (s : State) : Bool := s.busy || s.cmdValid

/-- The move that comes when the schedule is empty: ENG's while it has work, SEQ's otherwise (log 2). -/
def defaultTurn (s : State) : Host.Outcome State Fault Refusal :=
  if engineHasWork s then engineTurn s else seqTurn s

/-- One move of one agent. A new list for SEQ drops what is left of the old one and a stop, but SEQ still waits for a command
outstanding (log 33). -/
def moveTurn (m : Move) (s : State) : Host.Outcome State Fault Refusal :=
  match m with
  | .eng => engineTurn s
  | .engByte => byteTurn s
  | .seq => seqTurn s
  | .tick => tickTurn s
  | .devSend b => .next { s with rxq := s.rxq ++ [b] }
  | .devTake => .next { s with txq := s.txq.tail }
  | .operands d => .next { s with cmd := d }
  | .request => .next { s with cmdValid := true }
  | .program ops => .next { s with seqQueue := ops, seqActs := [], seqStop := none }
  | .channel replies rest => .next { s with txReplies := replies, txRest := rest }
  | .source avail bytes err => .next { s with plAvail := avail, plq := s.plq ++ bytes, plErr := err }
  | .reset => .next (resetBlock s)

/-- One step: `prog_valid`, a strobe of one event (R29), falls, and the next move of the schedule is made. -/
def nextTurn (s : State) : Host.Outcome State Fault Refusal :=
  match s.sched with
  | [] => defaultTurn { s with progValid := false }
  | m :: rest => moveTurn m { s with progValid := false, sched := rest }

/-- The command whose engine sends a packet with this header and `end`, for a packet placed from outside. -/
def senderOf (cfg : Config) (b : Vector Byte 16) : BitVec 3 :=
  match classify (decodePacket cfg b) with
  | (.setreg, _) => opSetreg
  | (.dlblk, _) => opDownload
  | (.run, _) => opRun
  | (.sync, _) => opSync
  | (.reserved, _) => opSync

/-- Puts wire where the engine fetches next, and gives ENG the next move (log 1): a descriptor is presented to an idle engine,
a packet stands in `txbuf` of an engine about to send it, a response word at the front of `rxq` of an engine about to read
it. -/
def placeWire (w : Wire) (s : State) : State :=
  match w with
  | .command d => { s with phase := .idle, cmd := d, cmdValid := true, sched := .eng :: s.sched }
  | .packet b =>
    { s with
      phase := .txHdr, txbuf := b, txIdx := 0, step := 0
      lat := { s.lat with op := senderOf s.cfg b }, sched := .eng :: s.sched }
  | .response r =>
    { s with phase := .rxWord, rxIdx := 0, rxq := r.toList ++ s.rxq, sched := .eng :: s.sched }

end Sys2Proof.Machine
end

