-- ==== Sys2Proof/Machine/Step.lean ====
section
/-! DEFINITION. One step of the machine, and the placing of an instruction where the next step fetches it. -/

namespace Sys2Proof.Machine

/-- One step: one move of one agent. -/
def step (s : State) : Host.Outcome State Fault Refusal := nextTurn s

/-- `s` with the instruction whose table word is `w` placed where `step` fetches its next instruction. A word of no format
changes nothing. -/
def State.withFetchWord (s : State) (nbits w : Nat) : State :=
  match wireOfTableWord nbits w with
  | some b => placeWire b s
  | none => s

end Sys2Proof.Machine
end

