-- ==== Sys2Proof/Safety.lean ====
section
/-! DEFINITION. The terms claims are stated in: what the channel is assumed to do, the packet a row stands for, the invariant of the
engine, and the bytes a download sends. -/

namespace Sys2Proof.Machine

/-- The channel accepts the next `n` bytes offered to it (R140). -/
abbrev ChannelAccepts (n : Nat) (s : State) : Prop := ∀ k, k < n → s.txReplies.getD k s.txRest = .accept

/-- The channel's answer to the byte offered after `n` others (R140). -/
def channelAnswer (n : Nat) (s : State) : TxReply := s.txReplies.getD n s.txRest

/-- The packet a packet row of the table stands for, its fields written out from R86. -/
def packetOf : Instr → Option Packet
  | .sync => some ⟨0x0505, 0, 0, 0, 0, 0⟩
  | .setreg addr width value => some ⟨0x0202, addr, width, 0, value, 0⟩
  | .downloadDlblk addr len => some ⟨0x0404, addr, 0, len, 0, 0⟩
  | .run addr => some ⟨0x0404, addr, 0, 0, 0, 0xaa⟩
  | .runHshake => some ⟨0x0505, 0, 0, 0, 0, 0⟩
  | _ => none

/-- The word a response row of the table stands for (R89). -/
def wordOfRow : Instr → Option Word
  | .respSyncOk => some 0xf0f0f0f0
  | .respAck => some 0x56787856
  | .respAck2 => some 0x128a8a12
  | .respRunA => some 0x08888888
  | .respRunB => some 0x88888888
  | _ => none

/-- Whether the row is a command row of the table (R90, R91). -/
def isCommandRow : Instr → Bool
  | .cmdSync | .cmdSetreg _ _ _ _ | .cmdDownload _ _ | .cmdRun _ | .cmdReserved _ => true
  | _ => false

/-- `tx_idx` at which SEND of a packet begins or goes on (R140). -/
def sendFrom (s : State) : Nat := if s.phase = .txHdr then s.txIdx else 0

/-- The next move is a turn of ENG's: the schedule names it, or is empty while ENG has work (log 2). -/
abbrev EngMoves (s : State) : Prop :=
  s.sched.head? = some .eng ∨ s.sched = [] ∧ (s.phase ≠ .idle ∨ s.cmdValid = true)

/-- The next move is a turn of SEQ's: the schedule names it, or is empty while ENG has no work (log 2). -/
abbrev SeqMoves (s : State) : Prop :=
  s.sched.head? = some .seq ∨ s.sched = [] ∧ s.phase = .idle ∧ s.cmdValid = false

/-- The invariant of the engine: the bounds R23, R25 and R26 give its registers, and what they hold in each phase. -/
structure Inv (s : State) : Prop where
  /-- TIMEOUT_TICKS is positive (R6). -/
  ticks_pos : 0 < s.cfg.timeoutTicks
  /-- `tx_idx` is 0 to 16 (R23). -/
  txIdx_le : s.txIdx ≤ 16
  /-- `rx_idx` is 0 to 4 (R23). -/
  rxIdx_le : s.rxIdx ≤ 4
  /-- `guard_cnt` is 0 to TIMEOUT_TICKS (R25). -/
  guardCnt_le : s.guardCnt ≤ s.cfg.timeoutTicks
  /-- `blk_len` is 0 to 4096 (R26). -/
  blkLen_le : s.blkLen ≤ 4096
  /-- `pay_idx` is 0 to 4096 (R26). -/
  payIdx_le : s.payIdx ≤ 4096
  /-- `res_valid` is 0 while a command runs (R27). -/
  busy_resValid : s.busy = true → s.resValid = false
  /-- A command in progress has one of the four codes (R91). -/
  busy_op : s.busy = true → s.lat.op.toNat < 4
  /-- In Unsynced only SYNC is performed (R225). -/
  busy_synced : s.busy = true → s.lat.op ≠ opSync → s.synced = true
  /-- SYNC and DOWNLOAD have one exchange at a time (R23). -/
  busy_step : s.busy = true → s.step = 1 → s.lat.op = opSetreg ∨ s.lat.op = opRun
  /-- A SETREG in progress has a legal width (R83). -/
  busy_width : s.busy = true → s.lat.op = opSetreg → legalWidth s.lat.width = true
  /-- A DOWNLOAD in progress is at a block of its image (R171). -/
  busy_download : s.busy = true → s.lat.op = opDownload →
    s.dlBase = s.lat.addr ∧ s.dlTotal = s.lat.len ∧ s.dlOffset.toNat < s.dlTotal.toNat ∧
    s.blkLen = blockLen s.dlTotal s.dlOffset ∧ s.res.addr = blockAddr s.dlBase s.dlOffset
  /-- While a packet is being sent it is that of the exchange in progress, and not all of it is out (R24, R86). -/
  txHdr : s.phase = .txHdr →
    s.txIdx < 16 ∧ s.txbuf = encodePacket s.cfg (currentPacket s) ∧ (s.lat.op = opSetreg → s.step = 0)
  /-- While a word is being read the guard is armed and the word is incomplete (R131). -/
  rxWord : s.phase = .rxWord → s.rxIdx < 4 ∧ 0 < s.guardCnt
  /-- Payload is only DOWNLOAD's, and not all of the block is out (R171). -/
  txPay : s.phase = .txPay → s.lat.op = opDownload ∧ s.payIdx < s.blkLen

/-- The bytes a DOWNLOAD sends from offset `off` of its image on (R171, R172): for each block its header and then its payload.
`fuel` bounds the number of blocks. -/
def downloadStream (cfg : Config) (base : Word) : Nat → Nat → List Byte → List Byte
  | 0, _, _ => []
  | fuel + 1, off, image =>
    if image.isEmpty then []
    else
      (encodePacket cfg
        ⟨0x0404, base + BitVec.ofNat 32 off, 0, BitVec.ofNat 32 (min 4096 image.length), 0, 0⟩).toList ++
      image.take 4096 ++ downloadStream cfg base fuel (off + 4096) (image.drop 4096)

/-- The number of blocks of an image of `n` bytes: `ceil(n / 4096)` (R172). -/
def blockCount (n : Nat) : Nat := (n + 4095) / 4096

end Sys2Proof.Machine
end

