-- ==== Sys2Proof/Certificates/Slice0/Obligations.lean ====
section
/-! DEFINITION. The statements for the provers. Each docstring names the rule of spec/ it formalises. A `t` that stands on both sides
of `t = { s with … }` leaves open only the fields given as `t.<field>`: every other field is as written. `progValid := false` is
the strobe that falls with every step (log 22), `txReplies` shortened the channel's answers used up (log 32). -/

open Sys2Proof Sys2Proof.Machine

/-! ### The codec (40_codec.md) -/

/-- R110: SWAP32 reverses the four bytes of a word and is its own inverse; a word whose byte string is a palindrome is its own
swap; the rule's example. -/
def Obligations.Swap32ReversesBytes : Prop :=
  (∀ v : Word,
    swap32 v = v.extractLsb' 0 8 ++ v.extractLsb' 8 8 ++ v.extractLsb' 16 8 ++ v.extractLsb' 24 8 ∧
    swap32 (swap32 v) = v ∧
    (v.extractLsb' 24 8 = v.extractLsb' 0 8 → v.extractLsb' 16 8 = v.extractLsb' 8 8 → swap32 v = v)) ∧
  swap32 0x1000a0a4 = 0xa4a00010

/-- R111: the 16 bytes ENCODE gives, whatever the packet value; for the three defined headers they do not depend on
HDR_LSB_FIRST; the rule's example. -/
def Obligations.EncodeLaysOutFields : Prop :=
  (∀ (cfg : Config) (p : Packet),
    (encodePacket cfg p).toList =
      (if cfg.hdrLsbFirst then [p.header.extractLsb' 0 8, p.header.extractLsb' 8 8]
        else [p.header.extractLsb' 8 8, p.header.extractLsb' 0 8]) ++
      [p.address.extractLsb' 24 8, p.address.extractLsb' 16 8, p.address.extractLsb' 8 8, p.address.extractLsb' 0 8] ++
      [p.type] ++
      [p.length.extractLsb' 24 8, p.length.extractLsb' 16 8, p.length.extractLsb' 8 8, p.length.extractLsb' 0 8] ++
      [p.data.extractLsb' 24 8, p.data.extractLsb' 16 8, p.data.extractLsb' 8 8, p.data.extractLsb' 0 8] ++
      [p.endFlag]) ∧
  (∀ (cfg : Config) (p : Packet) (order : Bool), p.header = 0x0505 ∨ p.header = 0x0202 ∨ p.header = 0x0404 →
    encodePacket { cfg with hdrLsbFirst := order } p = encodePacket cfg p) ∧
  (∀ cfg : Config, (encodePacket cfg ⟨0x0202, 0x1000a0a4, 32, 0, 9599, 0⟩).toList =
    [0x02, 0x02, 0x10, 0x00, 0xa0, 0xa4, 0x20, 0, 0, 0, 0, 0, 0, 0x25, 0x7f, 0])

/-- R112: the fields DECODE reads, whatever the 16 bytes; the rule's example. -/
def Obligations.DecodeReadsFields : Prop :=
  (∀ (cfg : Config) (b : Vector Byte 16),
    (decodePacket cfg b).header = (if cfg.hdrLsbFirst then b[1] ++ b[0] else b[0] ++ b[1]) ∧
    (decodePacket cfg b).address = b[2] ++ b[3] ++ b[4] ++ b[5] ∧
    (decodePacket cfg b).type = b[6] ∧
    (decodePacket cfg b).length = b[7] ++ b[8] ++ b[9] ++ b[10] ∧
    (decodePacket cfg b).data = b[11] ++ b[12] ++ b[13] ++ b[14] ∧
    (decodePacket cfg b).endFlag = b[15]) ∧
  (∀ cfg : Config,
    decodePacket cfg #v[0x04, 0x04, 0xc0, 0x00, 0x10, 0x00, 0, 0x00, 0x00, 0x03, 0x88, 0, 0, 0, 0, 0] =
      ⟨0x0404, 0xc0001000, 0, 904, 0, 0⟩)

/-- R113: ENCODE and DECODE are inverse to each other, under either value of HDR_LSB_FIRST. -/
def Obligations.EncodeDecodeInverse : Prop :=
  (∀ (cfg : Config) (p : Packet), decodePacket cfg (encodePacket cfg p) = p) ∧
  (∀ (cfg : Config) (b : Vector Byte 16), encodePacket cfg (decodePacket cfg b) = b)

/-- R114: CLASSIFY's verdict on every packet value; the rule's example. -/
def Obligations.ClassifyByHeaderAndEnd : Prop :=
  (∀ p : Packet,
    classify p =
      if p.header = 0x0505 then (.sync, false)
      else if p.header = 0x0202 then (.setreg, decide (¬(p.type = 8 ∨ p.type = 16 ∨ p.type = 32)))
      else if p.header = 0x0404 then (if p.endFlag = 0xaa then .run else .dlblk, false)
      else (.reserved, false)) ∧
  (∀ cfg : Config,
    classify (decodePacket cfg #v[0x04, 0x04, 0xc0, 0, 0, 0, 0, 0, 0, 0, 0, 0, 0, 0, 0, 0xaa]) = (.run, false))

/-- R115: WORD under both settings of RESP_LSB_FIRST, and WORD_BYTES as its inverse; the settings agree exactly on
palindromes; the rule's example. -/
def Obligations.ResponseWordAndItsBytes : Prop :=
  (∀ (cfg : Config) (r : Vector Byte 4),
    wordOfResponse cfg r =
      (if cfg.respLsbFirst then r[3] ++ r[2] ++ r[1] ++ r[0] else r[0] ++ r[1] ++ r[2] ++ r[3]) ∧
    (∀ w : Word, wordOfResponse cfg r = w ↔ r = responseOfWord cfg w) ∧
    (wordOfResponse { cfg with respLsbFirst := true } r = wordOfResponse { cfg with respLsbFirst := false } r ↔
      r[0] = r[3] ∧ r[1] = r[2])) ∧
  (∀ cfg : Config, cfg.respLsbFirst = true → wordOfResponse cfg #v[0x88, 0x88, 0x88, 0x08] = 0x08888888)

/-- R86, R89, R90, R91: decoding what the encoder writes gives the instruction back, for every well-formed instruction of the
table and every setting of the parameters. -/
def Obligations.RowsDecodeBack : Prop :=
  ∀ (cfg : Config) (i : Instr), i.wellFormed = true → decode cfg i.inHandshake (encode cfg i) = .ok i

/-- R86, R87, R89: what the decoder takes for a packet row or a response row is exactly that row's bytes, so no bit is
dropped, and the row is well-formed. -/
def Obligations.AcceptedBytesEncodeBack : Prop :=
  (∀ (cfg : Config) (handshake : Bool) (b : Vector Byte 16) (i : Instr),
    decodePacketRow cfg handshake b = .ok i → encode cfg i = .packet b ∧ i.wellFormed = true) ∧
  (∀ (cfg : Config) (r : Vector Byte 4) (i : Instr),
    decodeResponseRow cfg r = .ok i → encode cfg i = .response r ∧ i.wellFormed = true)

/-- R86, R89, R91, R93: fifteen words written out from the encoding tables decode to the rows they stand for, and a word that
is none of the five responses is rejected. That the CMD words, which R93 gives no operand bits, decode with operands of 0 is
log 18; that a table word is read under the default byte orders is logs 8 and 18. -/
def Obligations.TableWordsDecode : Prop :=
  decodeTableWord 128 0x05050000000000000000000000000000 = some .sync ∧
  decodeTableWord 128 0x02021000a0a420000000000000257f00 = some (.setreg 0x1000a0a4 32 9599) ∧
  decodeTableWord 128 0x0404c000100000000003880000000000 = some (.downloadDlblk 0xc0001000 904) ∧
  decodeTableWord 128 0x0404c0000000000000000000000000aa = some (.run 0xc0000000) ∧
  decodeTableWord 8 0 = some .cmdSync ∧ decodeTableWord 8 1 = some (.cmdSetreg 0 0 0 false) ∧
  decodeTableWord 8 2 = some (.cmdDownload 0 0) ∧ decodeTableWord 8 3 = some (.cmdRun 0) ∧
  decodeTableWord 8 4 = some (.cmdReserved 0) ∧ decodeTableWord 8 7 = some (.cmdReserved 3) ∧
  decodeTableWord 32 0xf0f0f0f0 = some .respSyncOk ∧ decodeTableWord 32 0x56787856 = some .respAck ∧
  decodeTableWord 32 0x128a8a12 = some .respAck2 ∧ decodeTableWord 32 0x88888808 = some .respRunA ∧
  decodeTableWord 32 0x88888888 = some .respRunB ∧ decodeTableWord 32 0x08888888 = none

/-- R86, R87: packets outside the table are rejected by name, by the first check that fails: another header, another width,
another `end`, a block length outside 1 to 4096, and a field not zero that the row leaves at zero. -/
def Obligations.PacketsOutsideTableRejected : Prop :=
  ∀ (cfg : Config) (handshake : Bool) (p : Packet),
    (p.header ≠ 0x0505 → p.header ≠ 0x0202 → p.header ≠ 0x0404 →
      decodePacketRow cfg handshake (encodePacket cfg p) = .error .reservedHeader) ∧
    (p.header = 0x0505 →
      (p.address ≠ 0 ∨ p.type ≠ 0 ∨ p.length ≠ 0 ∨ p.data ≠ 0 ∨ p.endFlag ≠ 0) →
      decodePacketRow cfg handshake (encodePacket cfg p) = .error .fieldNotZero) ∧
    (p.header = 0x0202 → p.type ≠ 8 → p.type ≠ 16 → p.type ≠ 32 →
      decodePacketRow cfg handshake (encodePacket cfg p) = .error .badWidth) ∧
    (p.header = 0x0202 → (p.type = 8 ∨ p.type = 16 ∨ p.type = 32) → (p.length ≠ 0 ∨ p.endFlag ≠ 0) →
      decodePacketRow cfg handshake (encodePacket cfg p) = .error .fieldNotZero) ∧
    (p.header = 0x0404 → p.endFlag ≠ 0 → p.endFlag ≠ 0xaa →
      decodePacketRow cfg handshake (encodePacket cfg p) = .error .badEnd) ∧
    (p.header = 0x0404 → p.endFlag = 0 → (p.length = 0 ∨ 4096 < p.length.toNat) →
      decodePacketRow cfg handshake (encodePacket cfg p) = .error .badLength) ∧
    (p.header = 0x0404 → p.endFlag = 0 → p.length ≠ 0 → p.length.toNat ≤ 4096 → (p.type ≠ 0 ∨ p.data ≠ 0) →
      decodePacketRow cfg handshake (encodePacket cfg p) = .error .fieldNotZero) ∧
    (p.header = 0x0404 → p.endFlag = 0xaa → (p.type ≠ 0 ∨ p.length ≠ 0 ∨ p.data ≠ 0) →
      decodePacketRow cfg handshake (encodePacket cfg p) = .error .fieldNotZero)

/-! ### Acceptance (42_session_ops.md rule R150)

In every statement of this part `cmdValid := false` is the model's choice of when the request falls (log 6). -/

/-- R150, R151: SYNC presented to an idle engine, synced or not, begins its exchange with P_SYNC; nothing else changes. That
the request falls at acceptance is the model's choice (log 6). -/
def Obligations.CmdSyncBeginsExchange : Prop :=
  ∀ s : State, s.phase = .idle →
    exec .cmdSync s = .next
      { s with
        lat := { s.cmd with op := 0 }, cmdValid := false, resValid := false, step := 0
        txbuf := encodePacket s.cfg ⟨0x0505, 0, 0, 0, 0, 0⟩, txIdx := 0, phase := .txHdr }

/-- R150, R152: SETREG with a legal width, presented to an idle, synced engine, begins with P_SETREG; nothing else changes.
That the request falls at acceptance is the model's choice (log 6). -/
def Obligations.CmdSetregBeginsExchange : Prop :=
  ∀ (s : State) (addr : Word) (width : Byte) (value : Word) (ign : Bool),
    s.phase = .idle → s.synced = true → width = 8 ∨ width = 16 ∨ width = 32 →
    exec (.cmdSetreg addr width value ign) s = .next
      { s with
        lat := { s.cmd with op := 1, addr := addr, width := width, value := value, ign := ign }
        cmdValid := false, resValid := false, step := 0
        txbuf := encodePacket s.cfg ⟨0x0202, addr, width, 0, value, 0⟩, txIdx := 0, phase := .txHdr }

/-- R150, R170, R171: DOWNLOAD of at least one byte, with a source, on an idle, synced engine, begins with the header of its
first block; nothing else changes. That the request falls at acceptance is the model's choice (log 6). -/
def Obligations.CmdDownloadBeginsFirstBlock : Prop :=
  ∀ (s : State) (addr len : Word),
    s.phase = .idle → s.synced = true → s.plAvail = true → len ≠ 0 →
    exec (.cmdDownload addr len) s = .next
      { s with
        lat := { s.cmd with op := 2, addr := addr, len := len }
        cmdValid := false, resValid := false, step := 0
        dlBase := addr, dlTotal := len, dlOffset := 0, blkLen := min 4096 len.toNat
        res := { s.res with addr := addr }
        txbuf := encodePacket s.cfg ⟨0x0404, addr, 0, BitVec.ofNat 32 (min 4096 len.toNat), 0, 0⟩
        txIdx := 0, phase := .txHdr }

/-- R170 corner case (b): DOWNLOAD of no bytes succeeds at once, sends nothing, and sets `last_entry`. That `res_nobs` is 0
where there was no exchange is the model's reading of R221 (log 25), that the request falls at acceptance its choice (log 6).
-/
def Obligations.CmdDownloadOfNothingSucceeds : Prop :=
  ∀ (s : State) (addr : Word), s.phase = .idle → s.synced = true → s.plAvail = true →
    ∃ t : State, exec (.cmdDownload addr 0) s = .next t ∧
      t = { s with
            lat := { s.cmd with op := 2, addr := addr, len := 0 }
            cmdValid := false, resValid := true, step := 0
            dlBase := addr, dlTotal := 0, dlOffset := 0
            lastEntryValid := true, lastEntryAddr := addr
            res := t.res, freeCtr := t.freeCtr } ∧
      t.res.kind = .ok ∧ t.res.ignored = false ∧ t.res.step = 0 ∧ t.res.nobs = 0 ∧ t.res.addr = addr ∧
      t.res.offset = 0

/-- R150, R153: RUN with a target, presented to an idle, synced engine, begins with P_RUN; the target is the operand, or
`last_entry_addr` for the sentinel 0; nothing else changes. That the request falls at acceptance is the model's choice (log
6). -/
def Obligations.CmdRunBeginsExchange : Prop :=
  ∀ (s : State) (addr target : Word),
    s.phase = .idle → s.synced = true →
    (addr ≠ 0 ∧ target = addr ∨ addr = 0 ∧ s.lastEntryValid = true ∧ target = s.lastEntryAddr) →
    exec (.cmdRun addr) s = .next
      { s with
        lat := { s.cmd with op := 3, addr := addr }
        cmdValid := false, resValid := false, step := 0
        res := { s.res with addr := target }
        txbuf := encodePacket s.cfg ⟨0x0404, target, 0, 0, 0, 0xaa⟩, txIdx := 0, phase := .txHdr }

/-- R150, R154, R218, R221: `cmd_op` 4 to 7 ends at acceptance with IllegalCommand: no I/O, no session state, whatever the
state of the idle engine. That the request falls at acceptance is the model's choice (log 6), that the command latches its
descriptor all the same its reading of R33 (log 23). -/
def Obligations.ReservedCommandIsIllegal : Prop :=
  ∀ (s : State) (x : BitVec 2), s.phase = .idle →
    ∃ t : State, exec (.cmdReserved x) s = .next t ∧
      t = { s with
            lat := { s.cmd with op := BitVec.ofNat 3 (4 + x.toNat) }
            cmdValid := false, resValid := true, step := 0, res := t.res, freeCtr := t.freeCtr } ∧
      t.res.kind = .illegalCommand ∧ t.res.ignored = false ∧ t.res.step = 0 ∧ t.res.nobs = 0 ∧ t.res.offset = 0

/-- R213, R220: SETREG with any other width ends at acceptance with InvalidWidth, synced or not and whatever `ign`: no I/O, no
session state. That the request falls at acceptance is the model's choice (log 6), that the command latches its descriptor all
the same its reading of R33 (log 23). -/
def Obligations.IllegalWidthIsInvalidWidth : Prop :=
  ∀ (s : State) (addr : Word) (width : Byte) (value : Word) (ign : Bool),
    s.phase = .idle → width ≠ 8 → width ≠ 16 → width ≠ 32 →
    ∃ t : State, exec (.cmdSetreg addr width value ign) s = .next t ∧
      t = { s with
            lat := { s.cmd with op := 1, addr := addr, width := width, value := value, ign := ign }
            cmdValid := false, resValid := true, step := 0, res := t.res, freeCtr := t.freeCtr } ∧
      t.res.kind = .invalidWidth ∧ t.res.ignored = false ∧ t.res.step = 0 ∧ t.res.nobs = 0 ∧ t.res.addr = addr ∧
      t.res.offset = 0

/-- R150, R154, R214, R220, R221: RUN of the sentinel with no `last_entry` ends at acceptance with NoEntryAddress, synced or
not: no I/O, no session state. That the request falls at acceptance is the model's choice (log 6), that the command latches
its descriptor all the same its reading of R33 (log 23). -/
def Obligations.RunWithoutEntryIsNoEntryAddress : Prop :=
  ∀ s : State, s.phase = .idle → s.lastEntryValid = false →
    ∃ t : State, exec (.cmdRun 0) s = .next t ∧
      t = { s with
            lat := { s.cmd with op := 3, addr := 0 }
            cmdValid := false, resValid := true, step := 0, res := t.res, freeCtr := t.freeCtr } ∧
      t.res.kind = .noEntryAddress ∧ t.res.ignored = false ∧ t.res.step = 0 ∧ t.res.nobs = 0 ∧ t.res.offset = 0

/-- R150, R154, R217, R220, R221: a command other than SYNC whose arguments pass ends at acceptance with NotSynced while
`synced` is 0: no I/O, no session state. That the request falls at acceptance is the model's choice (log 6), that the command
latches its descriptor all the same its reading of R33 (log 23). -/
def Obligations.UnsyncedCommandsAreNotSynced : Prop :=
  ∀ (s : State) (i : Instr) (d : Descriptor), s.phase = .idle → s.synced = false →
    ((∃ addr width value ign, i = .cmdSetreg addr width value ign ∧ (width = 8 ∨ width = 16 ∨ width = 32) ∧
        d = { s.cmd with op := 1, addr := addr, width := width, value := value, ign := ign }) ∨
     (∃ addr len, i = .cmdDownload addr len ∧ d = { s.cmd with op := 2, addr := addr, len := len }) ∨
     (∃ addr, i = .cmdRun addr ∧ (addr ≠ 0 ∨ s.lastEntryValid = true) ∧ d = { s.cmd with op := 3, addr := addr })) →
    ∃ t : State, exec i s = .next t ∧
      t = { s with
            lat := d, cmdValid := false, resValid := true, step := 0, res := t.res, freeCtr := t.freeCtr } ∧
      t.res.kind = .notSynced ∧ t.res.ignored = false ∧ t.res.step = 0 ∧ t.res.nobs = 0 ∧ t.res.offset = 0

/-- R150 step 4, R174: DOWNLOAD without an image, on a synced engine, ends at acceptance with SourceUnavailable: no I/O, no
session state. That the request falls at acceptance is the model's choice (log 6), that the command latches its descriptor all
the same its reading of R33 (log 23). -/
def Obligations.DownloadWithoutSourceIsSourceUnavailable : Prop :=
  ∀ (s : State) (addr len : Word), s.phase = .idle → s.synced = true → s.plAvail = false →
    ∃ t : State, exec (.cmdDownload addr len) s = .next t ∧
      t = { s with
            lat := { s.cmd with op := 2, addr := addr, len := len }
            cmdValid := false, resValid := true, step := 0, res := t.res, freeCtr := t.freeCtr } ∧
      t.res.kind = .sourceUnavailable ∧ t.res.ignored = false ∧ t.res.step = 0 ∧ t.res.nobs = 0 ∧ t.res.offset = 0

/-- R33, R246, R141: what is presented outside the phase that takes it waits, and nothing changes: a command while another is
in progress is not accepted, a response word outside a read stays in `rxq`, neither lost nor seen. -/
def Obligations.RowsWaitOutsideTheirPhase : Prop :=
  (∀ (s : State) (i : Instr), s.phase ≠ .idle → isCommandRow i = true → exec i s = .next s) ∧
  (∀ (i : Instr) (w : Word) (s : State), wordOfRow i = some w → s.phase ≠ .rxWord → exec i s = .next s)

/-- R33, R64 a, R255: `lat_*` is written only where ENG accepts the descriptor presented, which it then copies whole, or by
reset; and while a command is in progress a move of ENG's or a tick does the same whatever stands in `cmd_*`, which it leaves
as it is. -/
def Obligations.OperandsAreSampledAtAcceptance : Prop :=
  (∀ s t : State, step s = .next t →
    t.lat = s.lat ∨
    (EngMoves s ∧ s.phase = .idle ∧ s.cmdValid = true ∧ t.lat = s.cmd) ∨
    s.sched.head? = some .reset) ∧
  (∀ (s t : State) (d : Descriptor), s.phase ≠ .idle →
    (EngMoves s ∨ s.sched.head? = some .engByte ∨ s.sched.head? = some .tick) →
    step s = .next t → t.cmd = s.cmd ∧ step { s with cmd := d } = .next { t with cmd := d })

/-! ### Sending a packet (41_guard.md rule R140)

In a phase other than TX_HDR, in which no step runs a packet row, the row begins to be sent: the model's choice (log 16). -/

/-- R140, R131: over a channel that accepts them, a packet row puts the rest of its 16 bytes into `txq` in order and arms the
read; nothing else changes. In phases other than TX_HDR that is log 16. -/
def Obligations.PacketRowsSendTheirBytes : Prop :=
  ∀ (i : Instr) (p : Packet) (s : State), packetOf i = some p →
    sendFrom s ≤ 16 → ChannelAccepts (16 - sendFrom s) s →
    exec i s = .next
      { s with
        txbuf := encodePacket s.cfg p, txIdx := 16
        txq := s.txq ++ (encodePacket s.cfg p).toList.drop (sendFrom s)
        txReplies := s.txReplies.drop (16 - sendFrom s)
        phase := .rxWord, rxIdx := 0, guardCnt := s.cfg.timeoutTicks }

/-- R140, R216, R221: where the channel accepts `m` bytes and signals `tx_err` on the next, the command ends with
TransportError; those bytes stay in `txq`, no read follows, and `ign` does not downgrade it. That `res_nobs` is 0 is the
model's reading of R221 (log 25); in phases other than TX_HDR the statement is log 16. -/
def Obligations.PacketRowsTransportError : Prop :=
  ∀ (i : Instr) (p : Packet) (s : State) (m : Nat), packetOf i = some p →
    m < 16 - sendFrom s → ChannelAccepts m s → channelAnswer m s = .error →
    ∃ t : State, exec i s = .next t ∧
      t = { s with
            txbuf := encodePacket s.cfg p, txIdx := sendFrom s + m
            txq := s.txq ++ ((encodePacket s.cfg p).toList.drop (sendFrom s)).take m
            txReplies := s.txReplies.drop (m + 1)
            phase := .idle, resValid := true, res := t.res, freeCtr := t.freeCtr } ∧
      t.res.kind = .transportError ∧ t.res.ignored = false ∧ t.res.step = s.step ∧ t.res.nobs = 0 ∧
      (s.lat.op = 1 → t.res.addr = s.lat.addr) ∧ (s.lat.op = 2 ∨ s.lat.op = 3 → t.res.addr = s.res.addr) ∧
      t.res.offset = if s.lat.op = 2 then s.dlOffset else 0

/-- R252, R140: where the channel accepts `m` bytes and then neither accepts nor signals, the engine waits in TX_HDR. In
phases other than TX_HDR that is log 16. -/
def Obligations.PacketRowsWaitForChannel : Prop :=
  ∀ (i : Instr) (p : Packet) (s : State) (m : Nat), packetOf i = some p →
    m < 16 - sendFrom s → ChannelAccepts m s → channelAnswer m s = .stall →
    exec i s = .next
      { s with
        txbuf := encodePacket s.cfg p, txIdx := sendFrom s + m
        txq := s.txq ++ ((encodePacket s.cfg p).toList.drop (sendFrom s)).take m
        txReplies := s.txReplies.drop (m + 1), phase := .txHdr }

/-! ### Response words (41_guard.md rules R132, R137) -/

/-- R151, R137, R221: the word that answers SYNC: 0xf0f0f0f0 sets `synced` and ends Ok, any other row's word ends
ProtocolMismatch with the word observed and `synced` as it was. -/
def Obligations.ResponseRowsAnswerSync : Prop :=
  ∀ (i : Instr) (w : Word) (s : State), wordOfRow i = some w → s.phase = .rxWord → s.lat.op = 0 →
    ∃ t : State, exec i s = .next t ∧
      t = { s with
            rxq := s.rxq.drop (4 - s.rxIdx), rxIdx := 4, rxbuf := responseOfWord s.cfg w, obs0 := w
            synced := if w = 0xf0f0f0f0 then true else s.synced
            phase := .idle, resValid := true, res := t.res, freeCtr := t.freeCtr } ∧
      t.res.kind = (if w = 0xf0f0f0f0 then .ok else .protocolMismatch) ∧ t.res.ignored = false ∧
      t.res.step = s.step ∧ t.res.nobs = 1 ∧ t.res.obs0 = w ∧ t.res.offset = 0

/-- R152, R131: SETREG's first word is kept, whatever its value, and the second read is armed. -/
def Obligations.ResponseRowsFirstWordOfSetreg : Prop :=
  ∀ (i : Instr) (w : Word) (s : State), wordOfRow i = some w → s.phase = .rxWord → s.lat.op = 1 → s.step = 0 →
    exec i s = .next
      { s with
        rxq := s.rxq.drop (4 - s.rxIdx), rxbuf := responseOfWord s.cfg w, obs0 := w, step := 1
        phase := .rxWord, rxIdx := 0, guardCnt := s.cfg.timeoutTicks }

/-- R152, R219, R221: after SETREG's second word both are compared: Ok, or Ok and ignored, or ProtocolMismatch with both words
observed. -/
def Obligations.ResponseRowsSecondWordOfSetreg : Prop :=
  ∀ (i : Instr) (w : Word) (s : State), wordOfRow i = some w → s.phase = .rxWord → s.lat.op = 1 → s.step = 1 →
    ∃ t : State, exec i s = .next t ∧
      t = { s with
            rxq := s.rxq.drop (4 - s.rxIdx), rxIdx := 4, rxbuf := responseOfWord s.cfg w, obs1 := w
            phase := .idle, resValid := true, res := t.res, freeCtr := t.freeCtr } ∧
      t.res.kind =
        (if (s.obs0 = 0x56787856 ∧ w = 0x128a8a12) ∨ s.lat.ign = true then .ok else .protocolMismatch) ∧
      t.res.ignored = (decide (¬(s.obs0 = 0x56787856 ∧ w = 0x128a8a12)) && s.lat.ign) ∧
      t.res.step = 1 ∧ t.res.nobs = 2 ∧ t.res.obs0 = s.obs0 ∧ t.res.obs1 = w ∧ t.res.addr = s.lat.addr ∧
      t.res.offset = 0

/-- R171, R221: the word that answers a block header: 0x56787856 opens the payload, any other row's word ends ProtocolMismatch
with the offset of the completed blocks and no payload byte sent. -/
def Obligations.ResponseRowsAnswerBlockHeader : Prop :=
  ∀ (i : Instr) (w : Word) (s : State), wordOfRow i = some w → s.phase = .rxWord → s.lat.op = 2 →
    ∃ t : State, exec i s = .next t ∧
      (w = 0x56787856 →
        t = { s with
              rxq := s.rxq.drop (4 - s.rxIdx), rxIdx := 4, rxbuf := responseOfWord s.cfg w, obs0 := w
              phase := .txPay, payIdx := 0 }) ∧
      (w ≠ 0x56787856 →
        t = { s with
              rxq := s.rxq.drop (4 - s.rxIdx), rxIdx := 4, rxbuf := responseOfWord s.cfg w, obs0 := w
              phase := .idle, resValid := true, res := t.res, freeCtr := t.freeCtr } ∧
        t.res.kind = .protocolMismatch ∧ t.res.ignored = false ∧ t.res.step = s.step ∧ t.res.nobs = 1 ∧
        t.res.obs0 = w ∧ t.res.addr = s.res.addr ∧ t.res.offset = s.dlOffset)

/-- R153, R62 b: the word that answers P_RUN: 0x56787856 sends the handshake packet, any other row's word ends
ProtocolMismatch and no handshake is sent. -/
def Obligations.ResponseRowsAnswerRun : Prop :=
  ∀ (i : Instr) (w : Word) (s : State), wordOfRow i = some w → s.phase = .rxWord → s.lat.op = 3 → s.step = 0 →
    ∃ t : State, exec i s = .next t ∧
      (w = 0x56787856 →
        t = { s with
              rxq := s.rxq.drop (4 - s.rxIdx), rxIdx := 4, rxbuf := responseOfWord s.cfg w, obs0 := w, step := 1
              txbuf := encodePacket s.cfg ⟨0x0505, 0, 0, 0, 0, 0⟩, txIdx := 0, phase := .txHdr }) ∧
      (w ≠ 0x56787856 →
        t = { s with
              rxq := s.rxq.drop (4 - s.rxIdx), rxIdx := 4, rxbuf := responseOfWord s.cfg w, obs0 := w
              phase := .idle, resValid := true, res := t.res, freeCtr := t.freeCtr } ∧
        t.res.kind = .protocolMismatch ∧ t.res.ignored = false ∧ t.res.step = 0 ∧ t.res.nobs = 1 ∧
        t.res.obs0 = w ∧ t.res.addr = s.res.addr ∧ t.res.offset = 0)

/-- R153: the word that answers RUN's handshake: 0x08888888 or 0x88888888 ends Ok, any other row's word ProtocolMismatch; the
session state is as it was. -/
def Obligations.ResponseRowsAnswerHandshake : Prop :=
  ∀ (i : Instr) (w : Word) (s : State), wordOfRow i = some w → s.phase = .rxWord → s.lat.op = 3 → s.step = 1 →
    ∃ t : State, exec i s = .next t ∧
      t = { s with
            rxq := s.rxq.drop (4 - s.rxIdx), rxIdx := 4, rxbuf := responseOfWord s.cfg w, obs0 := w
            phase := .idle, resValid := true, res := t.res, freeCtr := t.freeCtr } ∧
      t.res.kind = (if w = 0x08888888 ∨ w = 0x88888888 then .ok else .protocolMismatch) ∧
      t.res.ignored = false ∧ t.res.step = 1 ∧ t.res.nobs = 1 ∧ t.res.obs0 = w ∧ t.res.addr = s.res.addr ∧
      t.res.offset = 0

/-- R89, R132, R137: a word that is none of the five rows completes a read like any other, and a command that compares it ends
ProtocolMismatch with the word observed, or, for a SETREG told to ignore it, Ok. The word is the `rx_idx` bytes of `rxbuf`
taken before and the next ones of `rxq`, and exactly those leave `rxq`. -/
def Obligations.UnlistedWordsAreMismatches : Prop :=
  ∀ (s : State) (r : Vector Byte 4),
    s.sched = [] → s.phase = .rxWord → s.rxIdx ≤ 3 →
    r.toList = s.rxbuf.toList.take s.rxIdx ++ s.rxq.take (4 - s.rxIdx) →
    decodeResponseRow s.cfg r = .error .notAResponse → s.lat.op.toNat < 4 →
    ∃ t : State, step s = .next t ∧ t.rxq = s.rxq.drop (4 - s.rxIdx) ∧ t.txq = s.txq ∧ t.plq = s.plq ∧
      t.synced = s.synced ∧ t.lastEntryValid = s.lastEntryValid ∧ t.lastEntryAddr = s.lastEntryAddr ∧
      (s.lat.op = 1 ∧ s.step = 0 → t.phase = .rxWord ∧ t.step = 1 ∧ t.rxIdx = 0 ∧ t.obs0 = wordOfResponse s.cfg r) ∧
      (s.lat.op = 1 ∧ s.step = 1 →
        t.phase = .idle ∧ t.resValid = true ∧ t.res.nobs = 2 ∧ t.res.obs1 = wordOfResponse s.cfg r ∧
        t.res.kind = (if s.lat.ign = true then .ok else .protocolMismatch) ∧ t.res.ignored = s.lat.ign) ∧
      (s.lat.op ≠ 1 →
        t.phase = .idle ∧ t.resValid = true ∧ t.res.kind = .protocolMismatch ∧ t.res.nobs = 1 ∧
        t.res.obs0 = wordOfResponse s.cfg r)

/-! ### The guard (41_guard.md) -/

/-- R132, R141: the engine takes what `rxq` holds of an incomplete word, in order, and goes on reading; in a move of one byte
event it takes the front byte alone, and the byte that completes the word is its whole turn. That a turn takes all the bytes
there are, and a move `engByte` one, is log 3. -/
def Obligations.PartialWordIsTaken : Prop :=
  (∀ s : State, s.sched = [] → s.phase = .rxWord → s.rxIdx + s.rxq.length < 4 →
    ∃ t : State, step s = .next t ∧
      t = { s with
            progValid := false, rxq := [], rxIdx := s.rxIdx + s.rxq.length, rxbuf := t.rxbuf } ∧
      ∀ (k : Nat) (h : k < 4),
        t.rxbuf[k] =
          if s.rxIdx ≤ k ∧ k < s.rxIdx + s.rxq.length then s.rxq.getD (k - s.rxIdx) 0 else s.rxbuf[k]) ∧
  (∀ (s : State) (rest : List Move) (c : Byte) (q : List Byte), s.sched = .engByte :: rest → s.phase = .rxWord →
    s.rxIdx < 3 → s.rxq = c :: q →
    ∃ t : State, step s = .next t ∧
      t = { s with sched := rest, progValid := false, rxq := q, rxIdx := s.rxIdx + 1, rxbuf := t.rxbuf } ∧
      ∀ (k : Nat) (h : k < 4), t.rxbuf[k] = if k = s.rxIdx then c else s.rxbuf[k]) ∧
  (∀ (s : State) (rest : List Move), s.sched = .engByte :: rest → s.phase = .rxWord → s.rxIdx = 3 →
    step s = step { s with sched := .eng :: rest }) ∧
  (∀ (s : State) (rest : List Move), s.sched = .engByte :: rest →
    (s.phase ≠ .rxWord ∨ s.rxIdx < 3 ∧ s.rxq = []) → step s = .next { s with sched := rest, progValid := false })

/-- R133, R134, R132: a tick that finds the word incomplete, with the guard above 1, takes what `rxq` holds, each byte into
its place, and counts; nothing else changes. -/
def Obligations.TickCountsGuard : Prop :=
  ∀ (s : State) (rest : List Move), s.sched = .tick :: rest → s.phase = .rxWord →
    s.rxIdx + s.rxq.length < 4 → 1 < s.guardCnt →
    ∃ t : State, step s = .next t ∧
      t = { s with
            sched := rest, progValid := false, rxq := [], rxIdx := s.rxIdx + s.rxq.length, rxbuf := t.rxbuf
            guardCnt := s.guardCnt - 1 } ∧
      ∀ (k : Nat) (h : k < 4),
        t.rxbuf[k] =
          if s.rxIdx ≤ k ∧ k < s.rxIdx + s.rxq.length then s.rxq.getD (k - s.rxIdx) 0 else s.rxbuf[k]

/-- R133, R130, R135, R211, R219, R221: the tick that brings the guard to 0 ends the read Short: the command ends with
Timeout, or, for a SETREG told to ignore it, Ok and ignored; the bytes of the incomplete word are gone, and whole words are
counted. -/
def Obligations.TickEndsReadShort : Prop :=
  ∀ (s : State) (rest : List Move), s.sched = .tick :: rest → s.phase = .rxWord →
    s.rxIdx + s.rxq.length < 4 → s.guardCnt = 1 →
    ∃ t : State, step s = .next t ∧
      t = { s with
            sched := rest, progValid := false, rxq := [], rxIdx := s.rxIdx + s.rxq.length, rxbuf := t.rxbuf
            guardCnt := 0, phase := .idle, resValid := true, res := t.res, freeCtr := t.freeCtr } ∧
      t.res.kind = (if s.lat.op = 1 ∧ s.lat.ign = true then .ok else .timeout) ∧
      t.res.ignored = decide (s.lat.op = 1 ∧ s.lat.ign = true) ∧ t.res.step = s.step ∧
      t.res.nobs = (if s.lat.op = 1 ∧ s.step = 1 then 1 else 0) ∧
      (s.lat.op = 1 ∧ s.step = 1 → t.res.obs0 = s.obs0) ∧
      (s.lat.op = 1 → t.res.addr = s.lat.addr) ∧ (s.lat.op = 2 ∨ s.lat.op = 3 → t.res.addr = s.res.addr) ∧
      t.res.offset = if s.lat.op = 2 then s.dlOffset else 0

/-- R134, R133: a tick that finds a whole word waiting is the byte events that complete it, whatever the guard stands at; a
tick outside a read has no effect. -/
def Obligations.BytesComeBeforeTick : Prop :=
  (∀ (s : State) (rest : List Move), s.sched = .tick :: rest → s.phase = .rxWord → 4 ≤ s.rxIdx + s.rxq.length →
    step s = step { s with sched := .eng :: rest }) ∧
  (∀ (s : State) (rest : List Move), s.sched = .tick :: rest → s.phase ≠ .rxWord →
    step s = .next { s with sched := rest, progValid := false })

/-- R139: a step that ends a read with Timeout is a tick, and leaves `rxq` empty: every Short of the guard is one the untimed
reading admits. -/
def Obligations.TimeoutOnlyWhenReceiveEmpty : Prop :=
  ∀ s t : State, step s = .next t → s.phase = .rxWord → t.phase = .idle → t.resValid = true →
    t.res.kind = .timeout →
    s.sched.head? = some .tick ∧ s.rxIdx + s.rxq.length < 4 ∧ t.rxq = []

/-- R252: with a channel that neither accepts nor signals, an engine with a byte to send stays in TX_HDR or TX_PAY, however
many steps it is given: nothing of the state changes but the progress strobe, which falls, and no result is written. -/
def Obligations.SilentChannelHangs : Prop :=
  ∀ (n : Nat) (s : State), s.sched = [] → s.txReplies = [] → s.txRest = .stall →
    (s.phase = .txHdr ∧ s.txIdx < 16 ∨ s.phase = .txPay ∧ s.payIdx < s.blkLen ∧ s.plq ≠ []) →
    ∃ t : State, Host.Core.run Sys2Proof.core n s = .next t ∧ t = { s with progValid := t.progValid }

/-! ### The payload of a block (43_download.md) -/

/-- R171, R173: with the source's bytes ready and a channel that accepts them, a block's payload goes out in order,
`dl_offset` advances, one progress report is made, and the header of the next block is built. -/
def Obligations.PayloadThenNextHeader : Prop :=
  ∀ (s : State) (off : Word),
    s.sched = [] → s.phase = .txPay → s.payIdx ≤ s.blkLen → s.blkLen - s.payIdx ≤ s.plq.length →
    ChannelAccepts (s.blkLen - s.payIdx) s → off = s.dlOffset + BitVec.ofNat 32 s.blkLen →
    off.toNat < s.dlTotal.toNat →
    step s = .next
      { s with
        txq := s.txq ++ s.plq.take (s.blkLen - s.payIdx), plq := s.plq.drop (s.blkLen - s.payIdx)
        payIdx := s.blkLen, txReplies := s.txReplies.drop (s.blkLen - s.payIdx)
        dlOffset := off, progOffset := off, progTotal := s.dlTotal, progValid := true
        blkLen := min 4096 (s.dlTotal.toNat - off.toNat), res := { s.res with addr := s.dlBase + off }
        txbuf := encodePacket s.cfg
          ⟨0x0404, s.dlBase + off, 0, BitVec.ofNat 32 (min 4096 (s.dlTotal.toNat - off.toNat)), 0, 0⟩
        txIdx := 0, phase := .txHdr }

/-- R170, R171, R173: after the last block's payload DOWNLOAD ends Ok, and `last_entry` is the address it was given. That
`res_nobs` is 1 and `res_obs0` the last ack is the model's reading of R221 (log 25). -/
def Obligations.LastPayloadEndsDownload : Prop :=
  ∀ (s : State) (off : Word),
    s.sched = [] → s.phase = .txPay → s.lat.op = 2 → s.payIdx ≤ s.blkLen →
    s.blkLen - s.payIdx ≤ s.plq.length →
    ChannelAccepts (s.blkLen - s.payIdx) s → off = s.dlOffset + BitVec.ofNat 32 s.blkLen →
    s.dlTotal.toNat ≤ off.toNat →
    ∃ t : State, step s = .next t ∧
      t = { s with
            txq := s.txq ++ s.plq.take (s.blkLen - s.payIdx), plq := s.plq.drop (s.blkLen - s.payIdx)
            payIdx := s.blkLen, txReplies := s.txReplies.drop (s.blkLen - s.payIdx)
            dlOffset := off, progOffset := off, progTotal := s.dlTotal, progValid := true
            lastEntryValid := true, lastEntryAddr := s.lat.addr
            phase := .idle, resValid := true, res := t.res, freeCtr := t.freeCtr } ∧
      t.res.kind = .ok ∧ t.res.ignored = false ∧ t.res.step = s.step ∧ t.res.nobs = 1 ∧ t.res.obs0 = s.obs0 ∧
      t.res.addr = s.res.addr ∧ t.res.offset = off

/-- R174, R215, R175: a source that fails or ends inside a block ends DOWNLOAD with SourceUnavailable: the bytes it gave are
sent, `last_entry` is as it was, and `res_offset` counts completed blocks only. -/
def Obligations.PayloadSourceFailure : Prop :=
  ∀ s : State, s.sched = [] → s.phase = .txPay → s.lat.op = 2 → s.plErr = true →
    s.plq.length < s.blkLen - s.payIdx → ChannelAccepts s.plq.length s →
    ∃ t : State, step s = .next t ∧
      t = { s with
            progValid := false, txq := s.txq ++ s.plq, plq := [], payIdx := s.payIdx + s.plq.length
            txReplies := s.txReplies.drop s.plq.length
            phase := .idle, resValid := true, res := t.res, freeCtr := t.freeCtr } ∧
      t.res.kind = .sourceUnavailable ∧ t.res.ignored = false ∧ t.res.step = s.step ∧
      t.res.addr = s.res.addr ∧ t.res.offset = s.dlOffset

/-- R140, R171, R216: `tx_err` on a payload byte ends DOWNLOAD with TransportError: the bytes before it stay in `txq`,
`last_entry` is as it was, and `res_offset` counts completed blocks only. That the byte refused has left `plq` is the model's
reading of PlRead (log 13). -/
def Obligations.PayloadTransportError : Prop :=
  ∀ (s : State) (m : Nat), s.sched = [] → s.phase = .txPay → s.lat.op = 2 →
    m < s.blkLen - s.payIdx → m < s.plq.length → ChannelAccepts m s → channelAnswer m s = .error →
    ∃ t : State, step s = .next t ∧
      t = { s with
            progValid := false, txq := s.txq ++ s.plq.take m, plq := s.plq.drop (m + 1), payIdx := s.payIdx + m
            txReplies := s.txReplies.drop (m + 1)
            phase := .idle, resValid := true, res := t.res, freeCtr := t.freeCtr } ∧
      t.res.kind = .transportError ∧ t.res.ignored = false ∧ t.res.step = s.step ∧
      t.res.addr = s.res.addr ∧ t.res.offset = s.dlOffset

/-! ### The whole machine -/

/-- R23, R33, R140, R132: a step in which ENG moves runs the instruction the engine stands at: exactly exec of it, with the
progress strobe fallen and, where the schedule named the move, that move gone from it. The word that completes a read is the
`rx_idx` bytes of `rxbuf` taken before and the next ones of `rxq`. How the instruction is found is log 1, the order of moves
log 2. -/
def Obligations.StepRunsFetchedInstruction : Prop :=
  (∀ (s : State) (i : Instr), s.sched = [] → fetch s = some i → step s = exec i { s with progValid := false }) ∧
  (∀ (s : State) (i : Instr) (rest : List Move), s.sched = .eng :: rest → fetch s = some i →
    step s = exec i { s with progValid := false, sched := rest }) ∧
  (∀ s : State, s.phase = .idle → s.cmdValid = true → fetch s = some (decodeCommandRow s.cmd)) ∧
  (∀ (s : State) (i : Instr), s.phase = .txHdr →
    decodePacketRow s.cfg (decide (s.lat.op = 3 ∧ s.step = 1)) s.txbuf = .ok i → fetch s = some i) ∧
  (∀ (s : State) (i : Instr) (r : Vector Byte 4), s.phase = .rxWord → s.rxIdx ≤ 3 →
    r.toList = s.rxbuf.toList.take s.rxIdx ++ s.rxq.take (4 - s.rxIdx) →
    decodeResponseRow s.cfg r = .ok i → fetch s = some i)

/-- R31: what reset leaves, for the registers the spec gives a value: in State.reset, and after the reset event of any state,
which leaves the channel's queues as they are. -/
def Obligations.ResetValuesOfTheSpec : Prop :=
  (State.reset.synced = false ∧ State.reset.lastEntryValid = false ∧ State.reset.phase = .idle ∧
    State.reset.busy = false ∧ State.reset.resValid = false ∧ State.reset.progValid = false) ∧
  ∀ (s : State) (rest : List Move), s.sched = .reset :: rest →
    ∃ t : State, step s = .next t ∧ t.synced = false ∧ t.lastEntryValid = false ∧ t.phase = .idle ∧
      t.busy = false ∧ t.resValid = false ∧ t.progValid = false ∧ t.rxq = s.rxq ∧ t.txq = s.txq

/-- R240, R241, R242: the reset event, at any time, puts the block's registers at their reset values, writes no result, and touches
neither the streams nor what lies outside the block. That the unspecified registers take the values of State.reset is the
model's choice (log 4, log 30), and so is that SEQ is left waiting for a command the reset abandons (log 33). -/
def Obligations.ResetEventResetsTheBlock : Prop :=
  ∀ (s : State) (rest : List Move), s.sched = .reset :: rest →
    step s = .next
      { State.reset with
        cfg := s.cfg, txq := s.txq, rxq := s.rxq, plq := s.plq, plAvail := s.plAvail, plErr := s.plErr
        txReplies := s.txReplies, txRest := s.txRest, chanBaud := s.chanBaud
        seqQueue := s.seqQueue, seqActs := s.seqActs, seqWait := s.seqWait, seqStop := s.seqStop
        sched := rest, freeCtr := s.freeCtr }

/-- R23, R25, R26, R27: the invariant holds at reset. For the counters R31 leaves unspecified that rests on the zeros the
model names for them (log 4). -/
def Obligations.ResetMeetsInvariant : Prop := Inv State.reset

/-- R23, R25, R26, R27, R86, R131, R171, R225: every step, whatever the environment does, keeps the invariant. -/
def Obligations.StepKeepsInvariant : Prop := ∀ s t : State, Inv s → step s = .next t → Inv t

/-- R86, R82: in every state that meets the invariant a sending engine holds a packet of the table, well-formed. -/
def Obligations.SendingEngineHoldsTablePacket : Prop :=
  ∀ s : State, Inv s → s.phase = .txHdr → ∃ (i : Instr) (p : Packet), fetch s = some i ∧ i.wellFormed = true ∧
    packetOf i = some p ∧ s.txbuf = encodePacket s.cfg p

/-- R20: `synced` is set only by the word 0xf0f0f0f0 read in answer to SYNC, and cleared only by reset. -/
def Obligations.SyncedSetOnlyBySync : Prop :=
  ∀ s t : State, step s = .next t → t.synced ≠ s.synced →
    (s.synced = false ∧ s.phase = .rxWord ∧ s.lat.op = 0 ∧ t.phase = .idle ∧ t.res.kind = .ok ∧
      t.obs0 = 0xf0f0f0f0) ∨
    (s.synced = true ∧ s.sched.head? = some .reset)

/-- R21: `last_entry` is written only where a DOWNLOAD succeeds, with the address it was given, and cleared only by reset. -/
def Obligations.LastEntryWrittenOnlyByDownload : Prop :=
  ∀ s t : State, step s = .next t →
    (t.lastEntryValid = s.lastEntryValid ∧ t.lastEntryAddr = s.lastEntryAddr) ∨
    (t.lastEntryValid = true ∧ t.lastEntryAddr = t.lat.addr ∧ t.resValid = true ∧ t.res.kind = .ok ∧
      t.dlTotal.toNat ≤ t.dlOffset.toNat ∧
      (s.phase = .txPay ∨ s.phase = .idle ∧ s.cmdValid = true ∧ s.cmd.op = 2 ∧ s.cmd.len = 0)) ∨
    s.sched.head? = some .reset

/-- R28, R193, R227, R248: no step writes a parameter, and the channel's own baud rate is changed by nothing but the
`setBaudRate` that SEQ reaches, on a turn of its own, after the commands before it in SETBAUD: none outstanding, none failed.
-/
def Obligations.ParametersAndBaudRateKept : Prop :=
  ∀ s t : State, step s = .next t →
    t.cfg = s.cfg ∧
    (t.chanBaud = s.chanBaud ∨
      ∃ rate : Nat, SeqMoves s ∧ s.seqStop = none ∧ s.seqWait = false ∧
        s.seqActs.head? = some (.setBaudRate rate) ∧ t.chanBaud = some rate)

/-- R51, R59, R61, R141: the three streams are moved in order, each end by one agent. Bytes enter `txq` at its back, by ENG in
TX_HDR or TX_PAY, and leave its front by DEV; they enter `rxq` at its back by DEV, and leave its front only in a read, no more
of them than the word lacks; they enter `plq` at its back by SRC, and leave its front by ENG in TX_PAY, no more of them than
the block lacks. SEQ's `download` connects another file in place of `plq` (R196). -/
def Obligations.StreamsAreFirstInFirstOut : Prop :=
  ∀ s t : State, step s = .next t →
    (t.txq = s.txq ∨
      (EngMoves s ∧ (s.phase = .txHdr ∨ s.phase = .txPay) ∧ ∃ sent, t.txq = s.txq ++ sent) ∨
      s.sched.head? = some .devTake ∧ t.txq = s.txq.tail) ∧
    (t.rxq = s.rxq ∨
      ((EngMoves s ∨ s.sched.head? = some .engByte ∨ s.sched.head? = some .tick) ∧ s.phase = .rxWord ∧
        ∃ n, n ≤ 4 - s.rxIdx ∧ t.rxq = s.rxq.drop n) ∨
      ∃ b, s.sched.head? = some (.devSend b) ∧ t.rxq = s.rxq ++ [b]) ∧
    (t.plq = s.plq ∨
      (EngMoves s ∧ s.phase = .txPay ∧ ∃ n, n ≤ s.blkLen - s.payIdx ∧ t.plq = s.plq.drop n) ∨
      (∃ avail more err, s.sched.head? = some (.source avail more err) ∧ t.plq = s.plq ++ more) ∨
      ∃ image, SeqMoves s ∧ s.seqActs.head? = some (.connect image) ∧ t.plq = image.getD [])

/-- R247, R62 a: the payload phase is entered only by the ack 0x56787856 of a block header, and outside that phase no byte
leaves `plq`: it stays as it is, SRC adds to it, or SEQ, on a turn of its own, connects another file (R196). -/
def Obligations.PayloadOnlyAfterAck : Prop :=
  ∀ s t : State, step s = .next t → s.phase ≠ .txPay →
    (t.phase = .txPay → s.phase = .rxWord ∧ s.lat.op = 2 ∧ t.obs0 = 0x56787856 ∧ t.payIdx = 0) ∧
    (t.plq = s.plq ∨
      (∃ avail more err, s.sched.head? = some (.source avail more err) ∧ t.plq = s.plq ++ more) ∨
      ∃ image, SeqMoves s ∧ s.seqActs.head? = some (.connect image) ∧ t.plq = image.getD [])

/-- R153 corner case (f), S6: with `last_entry` present and its address not 0, RUN of the sentinel is RUN of that address: the
same next state but for the operand latched, and the same packet sent. -/
def Obligations.RunSentinelIsRunOfLastEntry : Prop :=
  ∀ s t : State, s.lastEntryValid = true → s.lastEntryAddr ≠ 0 → s.phase = .idle →
    exec (.cmdRun 0) s = .next t →
    exec (.cmdRun s.lastEntryAddr) s = .next { t with lat := { t.lat with addr := s.lastEntryAddr } }

/-! ### Whole commands, run by the machine's own steps -/

/-- R151: a SYNC presented to an idle engine, over a channel that accepts and with a whole word waiting, runs in three steps:
16 bytes out, 4 in, and the result the word decides. -/
def Obligations.SyncCommandRuns : Prop :=
  ∀ (s : State) (r : Vector Byte 4) (q : List Byte),
    s.sched = [] → s.phase = .idle → s.cmdValid = true → s.cmd.op = 0 →
    ChannelAccepts 16 s → s.rxq = r.toList ++ q →
    ∃ t : State, Host.Core.run Sys2Proof.core 3 s = .next t ∧ t.phase = .idle ∧ t.resValid = true ∧
      t.txq = s.txq ++ [0x05, 0x05, 0, 0, 0, 0, 0, 0, 0, 0, 0, 0, 0, 0, 0, 0] ∧ t.rxq = q ∧
      t.res.kind = (if wordOfResponse s.cfg r = 0xf0f0f0f0 then .ok else .protocolMismatch) ∧
      t.res.nobs = 1 ∧ t.res.obs0 = wordOfResponse s.cfg r ∧
      t.synced = (s.synced || decide (wordOfResponse s.cfg r = 0xf0f0f0f0)) ∧
      t.lastEntryValid = s.lastEntryValid ∧ t.lastEntryAddr = s.lastEntryAddr ∧ t.plq = s.plq

/-- R152: a SETREG with a legal width, presented to an idle, synced engine, over a channel that accepts and with two whole
words waiting, runs in four steps: both words are read before either is compared. -/
def Obligations.SetregCommandRuns : Prop :=
  ∀ (s : State) (r0 r1 : Vector Byte 4) (q : List Byte),
    s.sched = [] → s.phase = .idle → s.cmdValid = true → s.cmd.op = 1 → s.synced = true →
    s.cmd.width = 8 ∨ s.cmd.width = 16 ∨ s.cmd.width = 32 →
    ChannelAccepts 16 s → s.rxq = r0.toList ++ (r1.toList ++ q) →
    ∃ t : State, Host.Core.run Sys2Proof.core 4 s = .next t ∧ t.phase = .idle ∧ t.resValid = true ∧
      t.txq = s.txq ++ (encodePacket s.cfg ⟨0x0202, s.cmd.addr, s.cmd.width, 0, s.cmd.value, 0⟩).toList ∧ t.rxq = q ∧
      t.res.kind =
        (if (wordOfResponse s.cfg r0 = 0x56787856 ∧ wordOfResponse s.cfg r1 = 0x128a8a12) ∨ s.cmd.ign = true
          then .ok else .protocolMismatch) ∧
      t.res.ignored =
        (decide (¬(wordOfResponse s.cfg r0 = 0x56787856 ∧ wordOfResponse s.cfg r1 = 0x128a8a12)) && s.cmd.ign) ∧
      t.res.nobs = 2 ∧ t.res.obs0 = wordOfResponse s.cfg r0 ∧ t.res.obs1 = wordOfResponse s.cfg r1 ∧
      t.res.addr = s.cmd.addr ∧ t.res.step = 1 ∧
      t.synced = true ∧ t.lastEntryValid = s.lastEntryValid ∧ t.lastEntryAddr = s.lastEntryAddr ∧ t.plq = s.plq

/-- R153: a RUN with a target, presented to an idle, synced engine, over a channel that accepts and with the ack and a word
waiting, runs in five steps: two packets out, and the second word decides; the session state is as it was. -/
def Obligations.RunCommandRuns : Prop :=
  ∀ (s : State) (target : Word) (r : Vector Byte 4) (q : List Byte),
    s.sched = [] → s.phase = .idle → s.cmdValid = true → s.cmd.op = 3 → s.synced = true →
    (s.cmd.addr ≠ 0 ∧ target = s.cmd.addr ∨
      s.cmd.addr = 0 ∧ s.lastEntryValid = true ∧ target = s.lastEntryAddr) →
    ChannelAccepts 32 s → s.rxq = (responseOfWord s.cfg 0x56787856).toList ++ (r.toList ++ q) →
    ∃ t : State, Host.Core.run Sys2Proof.core 5 s = .next t ∧ t.phase = .idle ∧ t.resValid = true ∧
      t.txq = s.txq ++ ((encodePacket s.cfg ⟨0x0404, target, 0, 0, 0, 0xaa⟩).toList ++
        [0x05, 0x05, 0, 0, 0, 0, 0, 0, 0, 0, 0, 0, 0, 0, 0, 0]) ∧ t.rxq = q ∧
      t.res.kind =
        (if wordOfResponse s.cfg r = 0x08888888 ∨ wordOfResponse s.cfg r = 0x88888888 then .ok
          else .protocolMismatch) ∧
      t.res.step = 1 ∧ t.res.nobs = 1 ∧ t.res.obs0 = wordOfResponse s.cfg r ∧ t.res.addr = target ∧
      t.synced = true ∧ t.lastEntryValid = s.lastEntryValid ∧ t.lastEntryAddr = s.lastEntryAddr ∧ t.plq = s.plq

/-- R170 to R173: a DOWNLOAD presented to an idle, synced engine, over a channel that accepts every byte, with the whole image
ready and an ack waiting for each of its `ceil(S / 4096)` blocks, comes to its end: header and payload of every block in
order, all of the image and nothing after it read, `last_entry` the address it was given. -/
def Obligations.DownloadCommandRuns : Prop :=
  ∀ (s : State) (image extra q : List Byte),
    s.sched = [] → s.phase = .idle → s.cmdValid = true → s.cmd.op = 2 → s.synced = true → s.plAvail = true →
    s.txReplies = [] → s.txRest = .accept → image.length < 2 ^ 32 → s.cmd.len = BitVec.ofNat 32 image.length →
    s.plq = image ++ extra →
    s.rxq = (List.replicate (blockCount image.length) (responseOfWord s.cfg 0x56787856).toList).flatten ++ q →
    ∃ (n : Nat) (t : State), Host.Core.run Sys2Proof.core n s = .next t ∧ t.phase = .idle ∧ t.resValid = true ∧
      t.res.kind = .ok ∧ t.res.offset = s.cmd.len ∧ t.lastEntryValid = true ∧ t.lastEntryAddr = s.cmd.addr ∧
      t.txq = s.txq ++ downloadStream s.cfg s.cmd.addr (blockCount image.length) 0 image ∧
      t.plq = extra ∧ t.rxq = q ∧
      (image ≠ [] → t.progValid = true ∧ t.progOffset = s.cmd.len ∧ t.progTotal = s.cmd.len)

/-! ### The sequencer (44_pseudo_ops.md) -/

/-- R190: SEQ goes on after Ok, ignored or not, and stops the queue at any other kind: the rest of the command's expansion,
and with it a `setBaudRate`, is dropped, and from then on SEQ does nothing. That SEQ reads the result on a turn of its own is
log 19. -/
def Obligations.SequencerStopsAtFirstFailure : Prop :=
  ∀ s : State, s.sched = [] → s.phase = .idle → s.cmdValid = false → s.resValid = true → s.seqWait = true →
    s.seqStop = none →
    step s = .next
      (if s.res.kind = .ok then { s with progValid := false, seqWait := false }
        else { s with progValid := false, seqWait := false, seqStop := some s.res.kind, seqActs := [] }) ∧
    (∀ u : State, u.sched = [] → u.phase = .idle → u.cmdValid = false → u.seqStop.isSome = true →
      step u = .next { u with progValid := false })

/-- R191 to R196: the expansions, and what SEQ does with them. SETBAUD is two SETREG, the second ignoring its mismatch, and
only then the channel's own rate; SETUP is one SETREG per table entry in order, mismatch ignored; `sync` is SYNC; `set` passes
`ign` 0; `download` connects its file and issues DOWNLOAD with the file's size; `run` inserts SYNC while unsynced, and `run()`
is the sentinel. Issuing writes `cmd_*` and raises `cmd_valid`; connecting gives SRC the file's bytes and its end, or no image
(R174); setting the rate is the channel's (R227). The model's choices: a command is expanded, and its implicit SYNC decided,
when the one before has ended, and a file that cannot be opened is no image (log 19), issued with length 0 (log 34); a divisor
or a size beyond 32 bits keeps its low 32 (log 21); a file ends after its bytes (log 14). -/
def Obligations.SequencerExpandsAndActs : Prop :=
  ∀ s : State, s.sched = [] → s.phase = .idle → s.cmdValid = false → s.seqStop = none → s.seqWait = false →
    (∀ ops : List SeqOp, s.seqActs = [] →
      (∀ rate : Nat, 100 ≤ rate → s.seqQueue = .setBaud rate :: ops →
        step s = .next
          { s with
            progValid := false, seqQueue := ops
            seqActs :=
              [.issue ⟨1, s.cfg.baudDivAddr, 32, BitVec.ofNat 32 (rate / 100 - 1), 0, false⟩,
               .issue ⟨1, s.cfg.fifoToAddr, 32, s.cfg.fifoToValue, 0, true⟩, .setBaudRate rate] }) ∧
      (∀ rate : Nat, rate < 100 → s.seqQueue = .setBaud rate :: ops → step s = .refused (.baudRateBelow100 rate)) ∧
      (s.seqQueue = .setup :: ops →
        step s = .next
          { s with
            progValid := false, seqQueue := ops
            seqActs := s.cfg.setupTable.map fun e => .issue ⟨1, e.addr, e.width, e.value, 0, true⟩ }) ∧
      (s.seqQueue = .sync :: ops →
        step s = .next { s with progValid := false, seqQueue := ops, seqActs := [.issue ⟨0, 0, 0, 0, 0, false⟩] }) ∧
      (∀ (addr : Word) (width : Byte) (value : Word), s.seqQueue = .setRegister addr width value :: ops →
        step s = .next
          { s with progValid := false, seqQueue := ops, seqActs := [.issue ⟨1, addr, width, value, 0, false⟩] }) ∧
      (∀ (image : List Byte) (addr : Word), s.seqQueue = .download (some image) addr :: ops →
        step s = .next
          { s with
            progValid := false, seqQueue := ops
            seqActs := [.connect (some image), .issue ⟨2, addr, 0, 0, BitVec.ofNat 32 image.length, false⟩] }) ∧
      (∀ addr : Word, s.seqQueue = .download none addr :: ops →
        step s = .next
          { s with
            progValid := false, seqQueue := ops, seqActs := [.connect none, .issue ⟨2, addr, 0, 0, 0, false⟩] }) ∧
      (∀ addr : Option Word, s.seqQueue = .run addr :: ops →
        step s = .next
          { s with
            progValid := false, seqQueue := ops
            seqActs :=
              (if s.synced then [] else [.issue ⟨0, 0, 0, 0, 0, false⟩]) ++
                [.issue ⟨3, addr.getD 0, 0, 0, 0, false⟩] })) ∧
    (∀ acts : List SeqAct,
      (∀ d : Descriptor, s.seqActs = .issue d :: acts →
        step s = .next
          { s with progValid := false, seqActs := acts, cmd := d, cmdValid := true, seqWait := true }) ∧
      (∀ image : List Byte, s.seqActs = .connect (some image) :: acts →
        step s = .next
          { s with progValid := false, seqActs := acts, plAvail := true, plq := image, plErr := true }) ∧
      (s.seqActs = .connect none :: acts →
        step s = .next { s with progValid := false, seqActs := acts, plAvail := false, plq := [], plErr := true }) ∧
      (∀ rate : Nat, s.seqActs = .setBaudRate rate :: acts →
        step s = .next { s with progValid := false, seqActs := acts, chanBaud := some rate }))
end

