-- ==== Sys2Proof/Laws/Codec.lean ====
section
/-! SUPPORT. Small lemmas of the codec: a word and its four bytes determine each other, and so do a header and its two. -/

namespace Sys2Proof.Laws

open Sys2Proof

theorem extract_append_hi {w v : Nat} (x : BitVec w) (y : BitVec v) (k n : Nat) :
    (x ++ y).extractLsb' (v + k) n = x.extractLsb' k n := by
  ext i hi
  simp [BitVec.getLsbD_append, show ¬ (v + k + i < v) by omega, show v + k + i - v = k + i by omega]

theorem extract_append_lo {w v : Nat} (x : BitVec w) (y : BitVec v) : (x ++ y).extractLsb' 0 v = y := by
  ext i hi
  simp [BitVec.getLsbD_append, hi]

theorem extract_all {w : Nat} (x : BitVec w) : x.extractLsb' 0 w = x := by simp

@[simp] theorem byte0_wordOf (a b c d : Byte) : byte0 (wordOf a b c d) = d :=
  extract_append_lo (a ++ b ++ c) d

@[simp] theorem byte1_wordOf (a b c d : Byte) : byte1 (wordOf a b c d) = c :=
  (extract_append_hi (a ++ b ++ c) d 0 8).trans (extract_append_lo (a ++ b) c)

@[simp] theorem byte2_wordOf (a b c d : Byte) : byte2 (wordOf a b c d) = b :=
  (extract_append_hi (a ++ b ++ c) d 8 8).trans <|
    (extract_append_hi (a ++ b) c 0 8).trans (extract_append_lo a b)

@[simp] theorem byte3_wordOf (a b c d : Byte) : byte3 (wordOf a b c d) = a :=
  (extract_append_hi (a ++ b ++ c) d 16 8).trans <|
    (extract_append_hi (a ++ b) c 8 8).trans <| (extract_append_hi a b 0 8).trans (extract_all a)

@[simp] theorem wordOf_bytes (v : Word) : wordOf (byte3 v) (byte2 v) (byte1 v) (byte0 v) = v := by
  unfold wordOf byte3 byte2 byte1 byte0
  rw [BitVec.extractLsb'_append_extractLsb'_eq_extractLsb' (by rfl),
    BitVec.extractLsb'_append_extractLsb'_eq_extractLsb' (by rfl),
    BitVec.extractLsb'_append_extractLsb'_eq_extractLsb' (by rfl)]
  exact extract_all v

@[simp] theorem header_of_bytes (h : BitVec 16) :
    ((h.extractLsb' 8 8 : Byte) ++ (h.extractLsb' 0 8 : Byte) : BitVec 16) = h := by
  rw [BitVec.extractLsb'_append_extractLsb'_eq_extractLsb' (by rfl)]
  exact extract_all h

@[simp] theorem header_lo (a b : Byte) : (a ++ b : BitVec 16).extractLsb' 0 8 = b := extract_append_lo a b

@[simp] theorem header_hi (a b : Byte) : (a ++ b : BitVec 16).extractLsb' 8 8 = a :=
  (extract_append_hi a b 0 8).trans (extract_all a)

@[simp] theorem encodePacket_length (cfg : Config) (p : Packet) : (encodePacket cfg p).toList.length = 16 := by simp

@[simp] theorem encode_format_packet (cfg : Config) (p : Packet) :
    (Wire.packet (encodePacket cfg p)).format = .packet128 := rfl

end Sys2Proof.Laws
end

