-- ==== Sys2Proof/Laws/Config.lean ====
section
/-! SUPPORT. What the setup table of the machine at reset is, whatever its open values: the constraints of 44_pseudo_ops.md rule
R194. -/

namespace Sys2Proof.Laws

open Sys2Proof

/-- The addresses of the 11 other entries are not the repeated one. -/
theorem openSetupAddr_ne (k : Nat) : Config.openSetupAddr k ≠ Config.openSetupRepeatAddr := by
  intro h
  have h0 : BitVec.ofNat 32 (1 + Config.openSetupDistance k % (2 ^ 32 - 1)) = 0#32 := by
    have := congrArg (· - Config.openSetupRepeatAddr) h
    simpa [Config.openSetupAddr, BitVec.add_comm] using this
  have h1 := congrArg BitVec.toNat h0
  rw [BitVec.toNat_ofNat, BitVec.toNat_zero] at h1
  omega

/-- Putting entries in anywhere gives the entries put in and those that were there. -/
theorem foldl_insertIdx_perm {α : Type} (slot : Nat → Nat) (e : Nat → α) (ks : List Nat) (t : List α) :
    (ks.foldl (fun t k => t.insertIdx (slot k % (t.length + 1)) (e k)) t).Perm (ks.map e ++ t) := by
  induction ks generalizing t with
  | nil => exact .refl _
  | cons k ks ih =>
    refine (ih _).trans ?_
    refine ((List.perm_insertIdx (e k) t (Nat.lt_succ_iff.1 (Nat.mod_lt _ (Nat.succ_pos _)))).append_left _).trans ?_
    exact List.perm_middle

/-- The table's entries, in some order: 8 writes to the repeated address and 11 others. -/
theorem openSetupTable_perm :
    Config.openSetupTable.Perm
      ((List.range 8).map (fun k => ⟨Config.openSetupRepeatAddr, 32, Config.openSetupValue (11 + k)⟩) ++
        (List.range 11).map (fun k => ⟨Config.openSetupAddr k, 32, Config.openSetupValue k⟩)) :=
  foldl_insertIdx_perm Config.openSetupSlot
    (fun k => (⟨Config.openSetupRepeatAddr, 32, Config.openSetupValue (11 + k)⟩ : SetupEntry)) (List.range 8)
    ((List.range 11).map fun k => ⟨Config.openSetupAddr k, 32, Config.openSetupValue k⟩)

/-- 19 entries. -/
theorem openSetupTable_length : Config.openSetupTable.length = 19 := by
  simpa using openSetupTable_perm.length_eq

/-- Every width is 32. -/
theorem openSetupTable_width : ∀ e ∈ Config.openSetupTable, e.width = 32 := by
  intro e he
  have := openSetupTable_perm.mem_iff.1 he
  simp only [List.mem_append, List.mem_map] at this
  obtain ⟨_, _, rfl⟩ | ⟨_, _, rfl⟩ := this <;> rfl

/-- The repeated address occurs 8 times, no more. -/
theorem openSetupTable_repeats :
    Config.openSetupTable.countP (fun e => e.addr == Config.openSetupRepeatAddr) = 8 := by
  rw [openSetupTable_perm.countP_eq, List.countP_append, List.countP_map, List.countP_map]
  simp [Function.comp_def, openSetupAddr_ne]

end Sys2Proof.Laws
end

