-- ==== Sys2Proof/Laws/State.lean ====
section
/-! SUPPORT. What each update of the state does to each field, true by unfolding the update once. -/

namespace Sys2Proof.Machine

/-! ### accept (R150) -/

@[simp] theorem accept_cfg (d : Descriptor) (s : State) : (accept d s).cfg = s.cfg := rfl
@[simp] theorem accept_synced (d : Descriptor) (s : State) : (accept d s).synced = s.synced := rfl
@[simp] theorem accept_lastEntryValid (d : Descriptor) (s : State) : (accept d s).lastEntryValid = s.lastEntryValid := rfl
@[simp] theorem accept_lastEntryAddr (d : Descriptor) (s : State) : (accept d s).lastEntryAddr = s.lastEntryAddr := rfl
@[simp] theorem accept_cmd (d : Descriptor) (s : State) : (accept d s).cmd = s.cmd := rfl
@[simp] theorem accept_cmdValid (d : Descriptor) (s : State) : (accept d s).cmdValid = false := rfl
@[simp] theorem accept_phase (d : Descriptor) (s : State) : (accept d s).phase = s.phase := rfl
@[simp] theorem accept_lat (d : Descriptor) (s : State) : (accept d s).lat = d := rfl
@[simp] theorem accept_step (d : Descriptor) (s : State) : (accept d s).step = 0 := rfl
@[simp] theorem accept_txIdx (d : Descriptor) (s : State) : (accept d s).txIdx = s.txIdx := rfl
@[simp] theorem accept_rxIdx (d : Descriptor) (s : State) : (accept d s).rxIdx = s.rxIdx := rfl
@[simp] theorem accept_txbuf (d : Descriptor) (s : State) : (accept d s).txbuf = s.txbuf := rfl
@[simp] theorem accept_rxbuf (d : Descriptor) (s : State) : (accept d s).rxbuf = s.rxbuf := rfl
@[simp] theorem accept_obs0 (d : Descriptor) (s : State) : (accept d s).obs0 = s.obs0 := rfl
@[simp] theorem accept_obs1 (d : Descriptor) (s : State) : (accept d s).obs1 = s.obs1 := rfl
@[simp] theorem accept_guardCnt (d : Descriptor) (s : State) : (accept d s).guardCnt = s.guardCnt := rfl
@[simp] theorem accept_dlBase (d : Descriptor) (s : State) : (accept d s).dlBase = s.dlBase := rfl
@[simp] theorem accept_dlTotal (d : Descriptor) (s : State) : (accept d s).dlTotal = s.dlTotal := rfl
@[simp] theorem accept_dlOffset (d : Descriptor) (s : State) : (accept d s).dlOffset = s.dlOffset := rfl
@[simp] theorem accept_blkLen (d : Descriptor) (s : State) : (accept d s).blkLen = s.blkLen := rfl
@[simp] theorem accept_payIdx (d : Descriptor) (s : State) : (accept d s).payIdx = s.payIdx := rfl
@[simp] theorem accept_resValid (d : Descriptor) (s : State) : (accept d s).resValid = false := rfl
@[simp] theorem accept_res (d : Descriptor) (s : State) : (accept d s).res = s.res := rfl
@[simp] theorem accept_progValid (d : Descriptor) (s : State) : (accept d s).progValid = s.progValid := rfl
@[simp] theorem accept_progOffset (d : Descriptor) (s : State) : (accept d s).progOffset = s.progOffset := rfl
@[simp] theorem accept_progTotal (d : Descriptor) (s : State) : (accept d s).progTotal = s.progTotal := rfl
@[simp] theorem accept_txq (d : Descriptor) (s : State) : (accept d s).txq = s.txq := rfl
@[simp] theorem accept_rxq (d : Descriptor) (s : State) : (accept d s).rxq = s.rxq := rfl
@[simp] theorem accept_plq (d : Descriptor) (s : State) : (accept d s).plq = s.plq := rfl
@[simp] theorem accept_plAvail (d : Descriptor) (s : State) : (accept d s).plAvail = s.plAvail := rfl
@[simp] theorem accept_plErr (d : Descriptor) (s : State) : (accept d s).plErr = s.plErr := rfl
@[simp] theorem accept_txReplies (d : Descriptor) (s : State) : (accept d s).txReplies = s.txReplies := rfl
@[simp] theorem accept_txRest (d : Descriptor) (s : State) : (accept d s).txRest = s.txRest := rfl
@[simp] theorem accept_chanBaud (d : Descriptor) (s : State) : (accept d s).chanBaud = s.chanBaud := rfl
@[simp] theorem accept_seqQueue (d : Descriptor) (s : State) : (accept d s).seqQueue = s.seqQueue := rfl
@[simp] theorem accept_seqActs (d : Descriptor) (s : State) : (accept d s).seqActs = s.seqActs := rfl
@[simp] theorem accept_seqWait (d : Descriptor) (s : State) : (accept d s).seqWait = s.seqWait := rfl
@[simp] theorem accept_seqStop (d : Descriptor) (s : State) : (accept d s).seqStop = s.seqStop := rfl
@[simp] theorem accept_sched (d : Descriptor) (s : State) : (accept d s).sched = s.sched := rfl
@[simp] theorem accept_freeCtr (d : Descriptor) (s : State) : (accept d s).freeCtr = s.freeCtr := rfl

/-! ### beginSend (R140) -/

@[simp] theorem beginSend_cfg (p : Packet) (s : State) : (beginSend p s).cfg = s.cfg := rfl
@[simp] theorem beginSend_synced (p : Packet) (s : State) : (beginSend p s).synced = s.synced := rfl
@[simp] theorem beginSend_lastEntryValid (p : Packet) (s : State) : (beginSend p s).lastEntryValid = s.lastEntryValid := rfl
@[simp] theorem beginSend_lastEntryAddr (p : Packet) (s : State) : (beginSend p s).lastEntryAddr = s.lastEntryAddr := rfl
@[simp] theorem beginSend_cmd (p : Packet) (s : State) : (beginSend p s).cmd = s.cmd := rfl
@[simp] theorem beginSend_cmdValid (p : Packet) (s : State) : (beginSend p s).cmdValid = s.cmdValid := rfl
@[simp] theorem beginSend_phase (p : Packet) (s : State) : (beginSend p s).phase = .txHdr := rfl
@[simp] theorem beginSend_lat (p : Packet) (s : State) : (beginSend p s).lat = s.lat := rfl
@[simp] theorem beginSend_step (p : Packet) (s : State) : (beginSend p s).step = s.step := rfl
@[simp] theorem beginSend_txIdx (p : Packet) (s : State) : (beginSend p s).txIdx = 0 := rfl
@[simp] theorem beginSend_rxIdx (p : Packet) (s : State) : (beginSend p s).rxIdx = s.rxIdx := rfl
@[simp] theorem beginSend_txbuf (p : Packet) (s : State) : (beginSend p s).txbuf = encodePacket s.cfg p := rfl
@[simp] theorem beginSend_rxbuf (p : Packet) (s : State) : (beginSend p s).rxbuf = s.rxbuf := rfl
@[simp] theorem beginSend_obs0 (p : Packet) (s : State) : (beginSend p s).obs0 = s.obs0 := rfl
@[simp] theorem beginSend_obs1 (p : Packet) (s : State) : (beginSend p s).obs1 = s.obs1 := rfl
@[simp] theorem beginSend_guardCnt (p : Packet) (s : State) : (beginSend p s).guardCnt = s.guardCnt := rfl
@[simp] theorem beginSend_dlBase (p : Packet) (s : State) : (beginSend p s).dlBase = s.dlBase := rfl
@[simp] theorem beginSend_dlTotal (p : Packet) (s : State) : (beginSend p s).dlTotal = s.dlTotal := rfl
@[simp] theorem beginSend_dlOffset (p : Packet) (s : State) : (beginSend p s).dlOffset = s.dlOffset := rfl
@[simp] theorem beginSend_blkLen (p : Packet) (s : State) : (beginSend p s).blkLen = s.blkLen := rfl
@[simp] theorem beginSend_payIdx (p : Packet) (s : State) : (beginSend p s).payIdx = s.payIdx := rfl
@[simp] theorem beginSend_resValid (p : Packet) (s : State) : (beginSend p s).resValid = s.resValid := rfl
@[simp] theorem beginSend_res (p : Packet) (s : State) : (beginSend p s).res = s.res := rfl
@[simp] theorem beginSend_progValid (p : Packet) (s : State) : (beginSend p s).progValid = s.progValid := rfl
@[simp] theorem beginSend_progOffset (p : Packet) (s : State) : (beginSend p s).progOffset = s.progOffset := rfl
@[simp] theorem beginSend_progTotal (p : Packet) (s : State) : (beginSend p s).progTotal = s.progTotal := rfl
@[simp] theorem beginSend_txq (p : Packet) (s : State) : (beginSend p s).txq = s.txq := rfl
@[simp] theorem beginSend_rxq (p : Packet) (s : State) : (beginSend p s).rxq = s.rxq := rfl
@[simp] theorem beginSend_plq (p : Packet) (s : State) : (beginSend p s).plq = s.plq := rfl
@[simp] theorem beginSend_plAvail (p : Packet) (s : State) : (beginSend p s).plAvail = s.plAvail := rfl
@[simp] theorem beginSend_plErr (p : Packet) (s : State) : (beginSend p s).plErr = s.plErr := rfl
@[simp] theorem beginSend_txReplies (p : Packet) (s : State) : (beginSend p s).txReplies = s.txReplies := rfl
@[simp] theorem beginSend_txRest (p : Packet) (s : State) : (beginSend p s).txRest = s.txRest := rfl
@[simp] theorem beginSend_chanBaud (p : Packet) (s : State) : (beginSend p s).chanBaud = s.chanBaud := rfl
@[simp] theorem beginSend_seqQueue (p : Packet) (s : State) : (beginSend p s).seqQueue = s.seqQueue := rfl
@[simp] theorem beginSend_seqActs (p : Packet) (s : State) : (beginSend p s).seqActs = s.seqActs := rfl
@[simp] theorem beginSend_seqWait (p : Packet) (s : State) : (beginSend p s).seqWait = s.seqWait := rfl
@[simp] theorem beginSend_seqStop (p : Packet) (s : State) : (beginSend p s).seqStop = s.seqStop := rfl
@[simp] theorem beginSend_sched (p : Packet) (s : State) : (beginSend p s).sched = s.sched := rfl
@[simp] theorem beginSend_freeCtr (p : Packet) (s : State) : (beginSend p s).freeCtr = s.freeCtr := rfl

/-! ### armRead (R131) -/

@[simp] theorem armRead_cfg (s : State) : (armRead s).cfg = s.cfg := rfl
@[simp] theorem armRead_synced (s : State) : (armRead s).synced = s.synced := rfl
@[simp] theorem armRead_lastEntryValid (s : State) : (armRead s).lastEntryValid = s.lastEntryValid := rfl
@[simp] theorem armRead_lastEntryAddr (s : State) : (armRead s).lastEntryAddr = s.lastEntryAddr := rfl
@[simp] theorem armRead_cmd (s : State) : (armRead s).cmd = s.cmd := rfl
@[simp] theorem armRead_cmdValid (s : State) : (armRead s).cmdValid = s.cmdValid := rfl
@[simp] theorem armRead_phase (s : State) : (armRead s).phase = .rxWord := rfl
@[simp] theorem armRead_lat (s : State) : (armRead s).lat = s.lat := rfl
@[simp] theorem armRead_step (s : State) : (armRead s).step = s.step := rfl
@[simp] theorem armRead_txIdx (s : State) : (armRead s).txIdx = s.txIdx := rfl
@[simp] theorem armRead_rxIdx (s : State) : (armRead s).rxIdx = 0 := rfl
@[simp] theorem armRead_txbuf (s : State) : (armRead s).txbuf = s.txbuf := rfl
@[simp] theorem armRead_rxbuf (s : State) : (armRead s).rxbuf = s.rxbuf := rfl
@[simp] theorem armRead_obs0 (s : State) : (armRead s).obs0 = s.obs0 := rfl
@[simp] theorem armRead_obs1 (s : State) : (armRead s).obs1 = s.obs1 := rfl
@[simp] theorem armRead_guardCnt (s : State) : (armRead s).guardCnt = s.cfg.timeoutTicks := rfl
@[simp] theorem armRead_dlBase (s : State) : (armRead s).dlBase = s.dlBase := rfl
@[simp] theorem armRead_dlTotal (s : State) : (armRead s).dlTotal = s.dlTotal := rfl
@[simp] theorem armRead_dlOffset (s : State) : (armRead s).dlOffset = s.dlOffset := rfl
@[simp] theorem armRead_blkLen (s : State) : (armRead s).blkLen = s.blkLen := rfl
@[simp] theorem armRead_payIdx (s : State) : (armRead s).payIdx = s.payIdx := rfl
@[simp] theorem armRead_resValid (s : State) : (armRead s).resValid = s.resValid := rfl
@[simp] theorem armRead_res (s : State) : (armRead s).res = s.res := rfl
@[simp] theorem armRead_progValid (s : State) : (armRead s).progValid = s.progValid := rfl
@[simp] theorem armRead_progOffset (s : State) : (armRead s).progOffset = s.progOffset := rfl
@[simp] theorem armRead_progTotal (s : State) : (armRead s).progTotal = s.progTotal := rfl
@[simp] theorem armRead_txq (s : State) : (armRead s).txq = s.txq := rfl
@[simp] theorem armRead_rxq (s : State) : (armRead s).rxq = s.rxq := rfl
@[simp] theorem armRead_plq (s : State) : (armRead s).plq = s.plq := rfl
@[simp] theorem armRead_plAvail (s : State) : (armRead s).plAvail = s.plAvail := rfl
@[simp] theorem armRead_plErr (s : State) : (armRead s).plErr = s.plErr := rfl
@[simp] theorem armRead_txReplies (s : State) : (armRead s).txReplies = s.txReplies := rfl
@[simp] theorem armRead_txRest (s : State) : (armRead s).txRest = s.txRest := rfl
@[simp] theorem armRead_chanBaud (s : State) : (armRead s).chanBaud = s.chanBaud := rfl
@[simp] theorem armRead_seqQueue (s : State) : (armRead s).seqQueue = s.seqQueue := rfl
@[simp] theorem armRead_seqActs (s : State) : (armRead s).seqActs = s.seqActs := rfl
@[simp] theorem armRead_seqWait (s : State) : (armRead s).seqWait = s.seqWait := rfl
@[simp] theorem armRead_seqStop (s : State) : (armRead s).seqStop = s.seqStop := rfl
@[simp] theorem armRead_sched (s : State) : (armRead s).sched = s.sched := rfl
@[simp] theorem armRead_freeCtr (s : State) : (armRead s).freeCtr = s.freeCtr := rfl

/-! ### takeAvailable (R132) -/

@[simp] theorem takeAvailable_cfg (s : State) : (takeAvailable s).cfg = s.cfg := rfl
@[simp] theorem takeAvailable_synced (s : State) : (takeAvailable s).synced = s.synced := rfl
@[simp] theorem takeAvailable_lastEntryValid (s : State) : (takeAvailable s).lastEntryValid = s.lastEntryValid := rfl
@[simp] theorem takeAvailable_lastEntryAddr (s : State) : (takeAvailable s).lastEntryAddr = s.lastEntryAddr := rfl
@[simp] theorem takeAvailable_cmd (s : State) : (takeAvailable s).cmd = s.cmd := rfl
@[simp] theorem takeAvailable_cmdValid (s : State) : (takeAvailable s).cmdValid = s.cmdValid := rfl
@[simp] theorem takeAvailable_phase (s : State) : (takeAvailable s).phase = s.phase := rfl
@[simp] theorem takeAvailable_lat (s : State) : (takeAvailable s).lat = s.lat := rfl
@[simp] theorem takeAvailable_step (s : State) : (takeAvailable s).step = s.step := rfl
@[simp] theorem takeAvailable_txIdx (s : State) : (takeAvailable s).txIdx = s.txIdx := rfl
@[simp] theorem takeAvailable_rxIdx (s : State) : (takeAvailable s).rxIdx = (takeBytes s.rxq s.rxIdx s.rxbuf).2.1 := rfl
@[simp] theorem takeAvailable_txbuf (s : State) : (takeAvailable s).txbuf = s.txbuf := rfl
@[simp] theorem takeAvailable_rxbuf (s : State) : (takeAvailable s).rxbuf = (takeBytes s.rxq s.rxIdx s.rxbuf).2.2 := rfl
@[simp] theorem takeAvailable_obs0 (s : State) : (takeAvailable s).obs0 = s.obs0 := rfl
@[simp] theorem takeAvailable_obs1 (s : State) : (takeAvailable s).obs1 = s.obs1 := rfl
@[simp] theorem takeAvailable_guardCnt (s : State) : (takeAvailable s).guardCnt = s.guardCnt := rfl
@[simp] theorem takeAvailable_dlBase (s : State) : (takeAvailable s).dlBase = s.dlBase := rfl
@[simp] theorem takeAvailable_dlTotal (s : State) : (takeAvailable s).dlTotal = s.dlTotal := rfl
@[simp] theorem takeAvailable_dlOffset (s : State) : (takeAvailable s).dlOffset = s.dlOffset := rfl
@[simp] theorem takeAvailable_blkLen (s : State) : (takeAvailable s).blkLen = s.blkLen := rfl
@[simp] theorem takeAvailable_payIdx (s : State) : (takeAvailable s).payIdx = s.payIdx := rfl
@[simp] theorem takeAvailable_resValid (s : State) : (takeAvailable s).resValid = s.resValid := rfl
@[simp] theorem takeAvailable_res (s : State) : (takeAvailable s).res = s.res := rfl
@[simp] theorem takeAvailable_progValid (s : State) : (takeAvailable s).progValid = s.progValid := rfl
@[simp] theorem takeAvailable_progOffset (s : State) : (takeAvailable s).progOffset = s.progOffset := rfl
@[simp] theorem takeAvailable_progTotal (s : State) : (takeAvailable s).progTotal = s.progTotal := rfl
@[simp] theorem takeAvailable_txq (s : State) : (takeAvailable s).txq = s.txq := rfl
@[simp] theorem takeAvailable_rxq (s : State) : (takeAvailable s).rxq = (takeBytes s.rxq s.rxIdx s.rxbuf).1 := rfl
@[simp] theorem takeAvailable_plq (s : State) : (takeAvailable s).plq = s.plq := rfl
@[simp] theorem takeAvailable_plAvail (s : State) : (takeAvailable s).plAvail = s.plAvail := rfl
@[simp] theorem takeAvailable_plErr (s : State) : (takeAvailable s).plErr = s.plErr := rfl
@[simp] theorem takeAvailable_txReplies (s : State) : (takeAvailable s).txReplies = s.txReplies := rfl
@[simp] theorem takeAvailable_txRest (s : State) : (takeAvailable s).txRest = s.txRest := rfl
@[simp] theorem takeAvailable_chanBaud (s : State) : (takeAvailable s).chanBaud = s.chanBaud := rfl
@[simp] theorem takeAvailable_seqQueue (s : State) : (takeAvailable s).seqQueue = s.seqQueue := rfl
@[simp] theorem takeAvailable_seqActs (s : State) : (takeAvailable s).seqActs = s.seqActs := rfl
@[simp] theorem takeAvailable_seqWait (s : State) : (takeAvailable s).seqWait = s.seqWait := rfl
@[simp] theorem takeAvailable_seqStop (s : State) : (takeAvailable s).seqStop = s.seqStop := rfl
@[simp] theorem takeAvailable_sched (s : State) : (takeAvailable s).sched = s.sched := rfl
@[simp] theorem takeAvailable_freeCtr (s : State) : (takeAvailable s).freeCtr = s.freeCtr := rfl

/-! ### takeByte (R132) -/

@[simp] theorem takeByte_cfg (s : State) : (takeByte s).cfg = s.cfg := rfl
@[simp] theorem takeByte_synced (s : State) : (takeByte s).synced = s.synced := rfl
@[simp] theorem takeByte_lastEntryValid (s : State) : (takeByte s).lastEntryValid = s.lastEntryValid := rfl
@[simp] theorem takeByte_lastEntryAddr (s : State) : (takeByte s).lastEntryAddr = s.lastEntryAddr := rfl
@[simp] theorem takeByte_cmd (s : State) : (takeByte s).cmd = s.cmd := rfl
@[simp] theorem takeByte_cmdValid (s : State) : (takeByte s).cmdValid = s.cmdValid := rfl
@[simp] theorem takeByte_phase (s : State) : (takeByte s).phase = s.phase := rfl
@[simp] theorem takeByte_lat (s : State) : (takeByte s).lat = s.lat := rfl
@[simp] theorem takeByte_step (s : State) : (takeByte s).step = s.step := rfl
@[simp] theorem takeByte_txIdx (s : State) : (takeByte s).txIdx = s.txIdx := rfl
@[simp] theorem takeByte_txbuf (s : State) : (takeByte s).txbuf = s.txbuf := rfl
@[simp] theorem takeByte_obs0 (s : State) : (takeByte s).obs0 = s.obs0 := rfl
@[simp] theorem takeByte_obs1 (s : State) : (takeByte s).obs1 = s.obs1 := rfl
@[simp] theorem takeByte_guardCnt (s : State) : (takeByte s).guardCnt = s.guardCnt := rfl
@[simp] theorem takeByte_dlBase (s : State) : (takeByte s).dlBase = s.dlBase := rfl
@[simp] theorem takeByte_dlTotal (s : State) : (takeByte s).dlTotal = s.dlTotal := rfl
@[simp] theorem takeByte_dlOffset (s : State) : (takeByte s).dlOffset = s.dlOffset := rfl
@[simp] theorem takeByte_blkLen (s : State) : (takeByte s).blkLen = s.blkLen := rfl
@[simp] theorem takeByte_payIdx (s : State) : (takeByte s).payIdx = s.payIdx := rfl
@[simp] theorem takeByte_resValid (s : State) : (takeByte s).resValid = s.resValid := rfl
@[simp] theorem takeByte_res (s : State) : (takeByte s).res = s.res := rfl
@[simp] theorem takeByte_progValid (s : State) : (takeByte s).progValid = s.progValid := rfl
@[simp] theorem takeByte_progOffset (s : State) : (takeByte s).progOffset = s.progOffset := rfl
@[simp] theorem takeByte_progTotal (s : State) : (takeByte s).progTotal = s.progTotal := rfl
@[simp] theorem takeByte_txq (s : State) : (takeByte s).txq = s.txq := rfl
@[simp] theorem takeByte_plq (s : State) : (takeByte s).plq = s.plq := rfl
@[simp] theorem takeByte_plAvail (s : State) : (takeByte s).plAvail = s.plAvail := rfl
@[simp] theorem takeByte_plErr (s : State) : (takeByte s).plErr = s.plErr := rfl
@[simp] theorem takeByte_txReplies (s : State) : (takeByte s).txReplies = s.txReplies := rfl
@[simp] theorem takeByte_txRest (s : State) : (takeByte s).txRest = s.txRest := rfl
@[simp] theorem takeByte_chanBaud (s : State) : (takeByte s).chanBaud = s.chanBaud := rfl
@[simp] theorem takeByte_seqQueue (s : State) : (takeByte s).seqQueue = s.seqQueue := rfl
@[simp] theorem takeByte_seqActs (s : State) : (takeByte s).seqActs = s.seqActs := rfl
@[simp] theorem takeByte_seqWait (s : State) : (takeByte s).seqWait = s.seqWait := rfl
@[simp] theorem takeByte_seqStop (s : State) : (takeByte s).seqStop = s.seqStop := rfl
@[simp] theorem takeByte_sched (s : State) : (takeByte s).sched = s.sched := rfl
@[simp] theorem takeByte_freeCtr (s : State) : (takeByte s).freeCtr = s.freeCtr := rfl
@[simp] theorem takeByte_rxq (s : State) : (takeByte s).rxq = s.rxq.drop 1 := rfl

/-! ### complete (R154) -/

@[simp] theorem complete_cfg (k : ResKind) (g : Bool) (n : Nat) (s : State) : (complete k g n s).cfg = s.cfg := rfl
@[simp] theorem complete_synced (k : ResKind) (g : Bool) (n : Nat) (s : State) : (complete k g n s).synced = s.synced := rfl
@[simp] theorem complete_lastEntryValid (k : ResKind) (g : Bool) (n : Nat) (s : State) : (complete k g n s).lastEntryValid = s.lastEntryValid := rfl
@[simp] theorem complete_lastEntryAddr (k : ResKind) (g : Bool) (n : Nat) (s : State) : (complete k g n s).lastEntryAddr = s.lastEntryAddr := rfl
@[simp] theorem complete_cmd (k : ResKind) (g : Bool) (n : Nat) (s : State) : (complete k g n s).cmd = s.cmd := rfl
@[simp] theorem complete_cmdValid (k : ResKind) (g : Bool) (n : Nat) (s : State) : (complete k g n s).cmdValid = s.cmdValid := rfl
@[simp] theorem complete_phase (k : ResKind) (g : Bool) (n : Nat) (s : State) : (complete k g n s).phase = .idle := rfl
@[simp] theorem complete_lat (k : ResKind) (g : Bool) (n : Nat) (s : State) : (complete k g n s).lat = s.lat := rfl
@[simp] theorem complete_step (k : ResKind) (g : Bool) (n : Nat) (s : State) : (complete k g n s).step = s.step := rfl
@[simp] theorem complete_txIdx (k : ResKind) (g : Bool) (n : Nat) (s : State) : (complete k g n s).txIdx = s.txIdx := rfl
@[simp] theorem complete_rxIdx (k : ResKind) (g : Bool) (n : Nat) (s : State) : (complete k g n s).rxIdx = s.rxIdx := rfl
@[simp] theorem complete_txbuf (k : ResKind) (g : Bool) (n : Nat) (s : State) : (complete k g n s).txbuf = s.txbuf := rfl
@[simp] theorem complete_rxbuf (k : ResKind) (g : Bool) (n : Nat) (s : State) : (complete k g n s).rxbuf = s.rxbuf := rfl
@[simp] theorem complete_obs0 (k : ResKind) (g : Bool) (n : Nat) (s : State) : (complete k g n s).obs0 = s.obs0 := rfl
@[simp] theorem complete_obs1 (k : ResKind) (g : Bool) (n : Nat) (s : State) : (complete k g n s).obs1 = s.obs1 := rfl
@[simp] theorem complete_guardCnt (k : ResKind) (g : Bool) (n : Nat) (s : State) : (complete k g n s).guardCnt = s.guardCnt := rfl
@[simp] theorem complete_dlBase (k : ResKind) (g : Bool) (n : Nat) (s : State) : (complete k g n s).dlBase = s.dlBase := rfl
@[simp] theorem complete_dlTotal (k : ResKind) (g : Bool) (n : Nat) (s : State) : (complete k g n s).dlTotal = s.dlTotal := rfl
@[simp] theorem complete_dlOffset (k : ResKind) (g : Bool) (n : Nat) (s : State) : (complete k g n s).dlOffset = s.dlOffset := rfl
@[simp] theorem complete_blkLen (k : ResKind) (g : Bool) (n : Nat) (s : State) : (complete k g n s).blkLen = s.blkLen := rfl
@[simp] theorem complete_payIdx (k : ResKind) (g : Bool) (n : Nat) (s : State) : (complete k g n s).payIdx = s.payIdx := rfl
@[simp] theorem complete_resValid (k : ResKind) (g : Bool) (n : Nat) (s : State) : (complete k g n s).resValid = true := rfl
@[simp] theorem complete_res (k : ResKind) (g : Bool) (n : Nat) (s : State) : (complete k g n s).res = 
      { kind := k, ignored := g, step := s.step, nobs := BitVec.ofNat 2 n, obs0 := resObs0 n s, obs1 := resObs1 n s,
        addr := resAddr s, offset := resOffset s } := rfl
@[simp] theorem complete_progValid (k : ResKind) (g : Bool) (n : Nat) (s : State) : (complete k g n s).progValid = s.progValid := rfl
@[simp] theorem complete_progOffset (k : ResKind) (g : Bool) (n : Nat) (s : State) : (complete k g n s).progOffset = s.progOffset := rfl
@[simp] theorem complete_progTotal (k : ResKind) (g : Bool) (n : Nat) (s : State) : (complete k g n s).progTotal = s.progTotal := rfl
@[simp] theorem complete_txq (k : ResKind) (g : Bool) (n : Nat) (s : State) : (complete k g n s).txq = s.txq := rfl
@[simp] theorem complete_rxq (k : ResKind) (g : Bool) (n : Nat) (s : State) : (complete k g n s).rxq = s.rxq := rfl
@[simp] theorem complete_plq (k : ResKind) (g : Bool) (n : Nat) (s : State) : (complete k g n s).plq = s.plq := rfl
@[simp] theorem complete_plAvail (k : ResKind) (g : Bool) (n : Nat) (s : State) : (complete k g n s).plAvail = s.plAvail := rfl
@[simp] theorem complete_plErr (k : ResKind) (g : Bool) (n : Nat) (s : State) : (complete k g n s).plErr = s.plErr := rfl
@[simp] theorem complete_txReplies (k : ResKind) (g : Bool) (n : Nat) (s : State) : (complete k g n s).txReplies = s.txReplies := rfl
@[simp] theorem complete_txRest (k : ResKind) (g : Bool) (n : Nat) (s : State) : (complete k g n s).txRest = s.txRest := rfl
@[simp] theorem complete_chanBaud (k : ResKind) (g : Bool) (n : Nat) (s : State) : (complete k g n s).chanBaud = s.chanBaud := rfl
@[simp] theorem complete_seqQueue (k : ResKind) (g : Bool) (n : Nat) (s : State) : (complete k g n s).seqQueue = s.seqQueue := rfl
@[simp] theorem complete_seqActs (k : ResKind) (g : Bool) (n : Nat) (s : State) : (complete k g n s).seqActs = s.seqActs := rfl
@[simp] theorem complete_seqWait (k : ResKind) (g : Bool) (n : Nat) (s : State) : (complete k g n s).seqWait = s.seqWait := rfl
@[simp] theorem complete_seqStop (k : ResKind) (g : Bool) (n : Nat) (s : State) : (complete k g n s).seqStop = s.seqStop := rfl
@[simp] theorem complete_sched (k : ResKind) (g : Bool) (n : Nat) (s : State) : (complete k g n s).sched = s.sched := rfl
@[simp] theorem complete_freeCtr (k : ResKind) (g : Bool) (n : Nat) (s : State) : (complete k g n s).freeCtr = s.freeCtr + 3 := rfl

/-! ### completeAtAcceptance (R150) -/

@[simp] theorem completeAtAcceptance_cfg (k : ResKind) (s : State) : (completeAtAcceptance k s).cfg = s.cfg := rfl
@[simp] theorem completeAtAcceptance_synced (k : ResKind) (s : State) : (completeAtAcceptance k s).synced = s.synced := rfl
@[simp] theorem completeAtAcceptance_lastEntryValid (k : ResKind) (s : State) : (completeAtAcceptance k s).lastEntryValid = s.lastEntryValid := rfl
@[simp] theorem completeAtAcceptance_lastEntryAddr (k : ResKind) (s : State) : (completeAtAcceptance k s).lastEntryAddr = s.lastEntryAddr := rfl
@[simp] theorem completeAtAcceptance_cmd (k : ResKind) (s : State) : (completeAtAcceptance k s).cmd = s.cmd := rfl
@[simp] theorem completeAtAcceptance_cmdValid (k : ResKind) (s : State) : (completeAtAcceptance k s).cmdValid = s.cmdValid := rfl
@[simp] theorem completeAtAcceptance_phase (k : ResKind) (s : State) : (completeAtAcceptance k s).phase = .idle := rfl
@[simp] theorem completeAtAcceptance_lat (k : ResKind) (s : State) : (completeAtAcceptance k s).lat = s.lat := rfl
@[simp] theorem completeAtAcceptance_step (k : ResKind) (s : State) : (completeAtAcceptance k s).step = s.step := rfl
@[simp] theorem completeAtAcceptance_txIdx (k : ResKind) (s : State) : (completeAtAcceptance k s).txIdx = s.txIdx := rfl
@[simp] theorem completeAtAcceptance_rxIdx (k : ResKind) (s : State) : (completeAtAcceptance k s).rxIdx = s.rxIdx := rfl
@[simp] theorem completeAtAcceptance_txbuf (k : ResKind) (s : State) : (completeAtAcceptance k s).txbuf = s.txbuf := rfl
@[simp] theorem completeAtAcceptance_rxbuf (k : ResKind) (s : State) : (completeAtAcceptance k s).rxbuf = s.rxbuf := rfl
@[simp] theorem completeAtAcceptance_obs0 (k : ResKind) (s : State) : (completeAtAcceptance k s).obs0 = s.obs0 := rfl
@[simp] theorem completeAtAcceptance_obs1 (k : ResKind) (s : State) : (completeAtAcceptance k s).obs1 = s.obs1 := rfl
@[simp] theorem completeAtAcceptance_guardCnt (k : ResKind) (s : State) : (completeAtAcceptance k s).guardCnt = s.guardCnt := rfl
@[simp] theorem completeAtAcceptance_dlBase (k : ResKind) (s : State) : (completeAtAcceptance k s).dlBase = s.dlBase := rfl
@[simp] theorem completeAtAcceptance_dlTotal (k : ResKind) (s : State) : (completeAtAcceptance k s).dlTotal = s.dlTotal := rfl
@[simp] theorem completeAtAcceptance_dlOffset (k : ResKind) (s : State) : (completeAtAcceptance k s).dlOffset = s.dlOffset := rfl
@[simp] theorem completeAtAcceptance_blkLen (k : ResKind) (s : State) : (completeAtAcceptance k s).blkLen = s.blkLen := rfl
@[simp] theorem completeAtAcceptance_payIdx (k : ResKind) (s : State) : (completeAtAcceptance k s).payIdx = s.payIdx := rfl
@[simp] theorem completeAtAcceptance_resValid (k : ResKind) (s : State) : (completeAtAcceptance k s).resValid = true := rfl
@[simp] theorem completeAtAcceptance_res (k : ResKind) (s : State) : (completeAtAcceptance k s).res = 
      { kind := k, ignored := false, step := 0, nobs := 0, obs0 := resObs0 0 s, obs1 := resObs1 0 s,
        addr := resAddrAtAcceptance k s, offset := 0 } := rfl
@[simp] theorem completeAtAcceptance_progValid (k : ResKind) (s : State) : (completeAtAcceptance k s).progValid = s.progValid := rfl
@[simp] theorem completeAtAcceptance_progOffset (k : ResKind) (s : State) : (completeAtAcceptance k s).progOffset = s.progOffset := rfl
@[simp] theorem completeAtAcceptance_progTotal (k : ResKind) (s : State) : (completeAtAcceptance k s).progTotal = s.progTotal := rfl
@[simp] theorem completeAtAcceptance_txq (k : ResKind) (s : State) : (completeAtAcceptance k s).txq = s.txq := rfl
@[simp] theorem completeAtAcceptance_rxq (k : ResKind) (s : State) : (completeAtAcceptance k s).rxq = s.rxq := rfl
@[simp] theorem completeAtAcceptance_plq (k : ResKind) (s : State) : (completeAtAcceptance k s).plq = s.plq := rfl
@[simp] theorem completeAtAcceptance_plAvail (k : ResKind) (s : State) : (completeAtAcceptance k s).plAvail = s.plAvail := rfl
@[simp] theorem completeAtAcceptance_plErr (k : ResKind) (s : State) : (completeAtAcceptance k s).plErr = s.plErr := rfl
@[simp] theorem completeAtAcceptance_txReplies (k : ResKind) (s : State) : (completeAtAcceptance k s).txReplies = s.txReplies := rfl
@[simp] theorem completeAtAcceptance_txRest (k : ResKind) (s : State) : (completeAtAcceptance k s).txRest = s.txRest := rfl
@[simp] theorem completeAtAcceptance_chanBaud (k : ResKind) (s : State) : (completeAtAcceptance k s).chanBaud = s.chanBaud := rfl
@[simp] theorem completeAtAcceptance_seqQueue (k : ResKind) (s : State) : (completeAtAcceptance k s).seqQueue = s.seqQueue := rfl
@[simp] theorem completeAtAcceptance_seqActs (k : ResKind) (s : State) : (completeAtAcceptance k s).seqActs = s.seqActs := rfl
@[simp] theorem completeAtAcceptance_seqWait (k : ResKind) (s : State) : (completeAtAcceptance k s).seqWait = s.seqWait := rfl
@[simp] theorem completeAtAcceptance_seqStop (k : ResKind) (s : State) : (completeAtAcceptance k s).seqStop = s.seqStop := rfl
@[simp] theorem completeAtAcceptance_sched (k : ResKind) (s : State) : (completeAtAcceptance k s).sched = s.sched := rfl
@[simp] theorem completeAtAcceptance_freeCtr (k : ResKind) (s : State) : (completeAtAcceptance k s).freeCtr = s.freeCtr + 3 := rfl

/-! ### resetBlock (R240) -/

@[simp] theorem resetBlock_cfg (s : State) : (resetBlock s).cfg = s.cfg := rfl
@[simp] theorem resetBlock_synced (s : State) : (resetBlock s).synced = State.reset.synced := rfl
@[simp] theorem resetBlock_lastEntryValid (s : State) : (resetBlock s).lastEntryValid = State.reset.lastEntryValid := rfl
@[simp] theorem resetBlock_lastEntryAddr (s : State) : (resetBlock s).lastEntryAddr = State.reset.lastEntryAddr := rfl
@[simp] theorem resetBlock_cmd (s : State) : (resetBlock s).cmd = State.reset.cmd := rfl
@[simp] theorem resetBlock_cmdValid (s : State) : (resetBlock s).cmdValid = State.reset.cmdValid := rfl
@[simp] theorem resetBlock_phase (s : State) : (resetBlock s).phase = State.reset.phase := rfl
@[simp] theorem resetBlock_lat (s : State) : (resetBlock s).lat = State.reset.lat := rfl
@[simp] theorem resetBlock_step (s : State) : (resetBlock s).step = State.reset.step := rfl
@[simp] theorem resetBlock_txIdx (s : State) : (resetBlock s).txIdx = State.reset.txIdx := rfl
@[simp] theorem resetBlock_rxIdx (s : State) : (resetBlock s).rxIdx = State.reset.rxIdx := rfl
@[simp] theorem resetBlock_txbuf (s : State) : (resetBlock s).txbuf = State.reset.txbuf := rfl
@[simp] theorem resetBlock_rxbuf (s : State) : (resetBlock s).rxbuf = State.reset.rxbuf := rfl
@[simp] theorem resetBlock_obs0 (s : State) : (resetBlock s).obs0 = State.reset.obs0 := rfl
@[simp] theorem resetBlock_obs1 (s : State) : (resetBlock s).obs1 = State.reset.obs1 := rfl
@[simp] theorem resetBlock_guardCnt (s : State) : (resetBlock s).guardCnt = State.reset.guardCnt := rfl
@[simp] theorem resetBlock_dlBase (s : State) : (resetBlock s).dlBase = State.reset.dlBase := rfl
@[simp] theorem resetBlock_dlTotal (s : State) : (resetBlock s).dlTotal = State.reset.dlTotal := rfl
@[simp] theorem resetBlock_dlOffset (s : State) : (resetBlock s).dlOffset = State.reset.dlOffset := rfl
@[simp] theorem resetBlock_blkLen (s : State) : (resetBlock s).blkLen = State.reset.blkLen := rfl
@[simp] theorem resetBlock_payIdx (s : State) : (resetBlock s).payIdx = State.reset.payIdx := rfl
@[simp] theorem resetBlock_resValid (s : State) : (resetBlock s).resValid = State.reset.resValid := rfl
@[simp] theorem resetBlock_res (s : State) : (resetBlock s).res = State.reset.res := rfl
@[simp] theorem resetBlock_progValid (s : State) : (resetBlock s).progValid = State.reset.progValid := rfl
@[simp] theorem resetBlock_progOffset (s : State) : (resetBlock s).progOffset = State.reset.progOffset := rfl
@[simp] theorem resetBlock_progTotal (s : State) : (resetBlock s).progTotal = State.reset.progTotal := rfl
@[simp] theorem resetBlock_txq (s : State) : (resetBlock s).txq = s.txq := rfl
@[simp] theorem resetBlock_rxq (s : State) : (resetBlock s).rxq = s.rxq := rfl
@[simp] theorem resetBlock_plq (s : State) : (resetBlock s).plq = s.plq := rfl
@[simp] theorem resetBlock_plAvail (s : State) : (resetBlock s).plAvail = s.plAvail := rfl
@[simp] theorem resetBlock_plErr (s : State) : (resetBlock s).plErr = s.plErr := rfl
@[simp] theorem resetBlock_txReplies (s : State) : (resetBlock s).txReplies = s.txReplies := rfl
@[simp] theorem resetBlock_txRest (s : State) : (resetBlock s).txRest = s.txRest := rfl
@[simp] theorem resetBlock_chanBaud (s : State) : (resetBlock s).chanBaud = s.chanBaud := rfl
@[simp] theorem resetBlock_seqQueue (s : State) : (resetBlock s).seqQueue = s.seqQueue := rfl
@[simp] theorem resetBlock_seqActs (s : State) : (resetBlock s).seqActs = s.seqActs := rfl
@[simp] theorem resetBlock_seqWait (s : State) : (resetBlock s).seqWait = s.seqWait := rfl
@[simp] theorem resetBlock_seqStop (s : State) : (resetBlock s).seqStop = s.seqStop := rfl
@[simp] theorem resetBlock_sched (s : State) : (resetBlock s).sched = s.sched := rfl
@[simp] theorem resetBlock_freeCtr (s : State) : (resetBlock s).freeCtr = s.freeCtr := rfl

end Sys2Proof.Machine
end

