-- ==== Sys2Proof/Laws/Ops.lean ====
section
/-! SUPPORT. What the shared operations can do, said once: offering bytes to the channel, taking bytes from `rxq`, and the cases in
which a send, a word, a tick and a payload turn end. -/

namespace Sys2Proof.Machine

/-! ### Offering bytes to the channel (R140) -/

/-- A channel that accepts every byte offered takes them all. -/
theorem txOffer_accepts (bs : List Byte) (replies : List TxReply) (rest : TxReply)
    (h : ∀ k, k < bs.length → replies.getD k rest = .accept) :
    txOffer bs replies rest = { sent := bs, replies := replies.drop bs.length, how := .done } := by
  induction bs generalizing replies with
  | nil => rfl
  | cons b bs ih =>
    have h0 : replies.headD rest = .accept := by
      have := h 0 (by simp)
      cases replies <;> simpa using this
    have hs : ∀ k, k < bs.length → replies.tail.getD k rest = .accept := by
      intro k hk
      have := h (k + 1) (by simpa using hk)
      cases replies <;> simpa using this
    have ht := ih replies.tail hs
    simp only [txOffer, h0, ht, List.length_cons]
    cases replies <;> simp

/-- A channel that accepts `m` bytes and signals `tx_err` on the next takes exactly those `m`. -/
theorem txOffer_error (bs : List Byte) (replies : List TxReply) (rest : TxReply) (m : Nat) (hm : m < bs.length)
    (ha : ∀ k, k < m → replies.getD k rest = .accept) (he : replies.getD m rest = .error) :
    txOffer bs replies rest = { sent := bs.take m, replies := replies.drop (m + 1), how := .error } := by
  induction m generalizing bs replies with
  | zero =>
    cases bs with
    | nil => simp at hm
    | cons b bs =>
      have h0 : replies.headD rest = .error := by cases replies <;> simpa using he
      simp only [txOffer, h0, List.take_zero]
      cases replies <;> simp
  | succ m ih =>
    cases bs with
    | nil => simp at hm
    | cons b bs =>
      have h0 : replies.headD rest = .accept := by
        have := ha 0 (by omega)
        cases replies <;> simpa using this
      have ht := ih bs replies.tail (by simpa using hm)
        (fun k hk => by have := ha (k + 1) (by omega); cases replies <;> simpa using this)
        (by cases replies <;> simpa using he)
      simp only [txOffer, h0, ht, List.take_succ_cons]
      cases replies <;> simp

/-- A channel that accepts `m` bytes and does not take the next takes exactly those `m`. -/
theorem txOffer_stall (bs : List Byte) (replies : List TxReply) (rest : TxReply) (m : Nat) (hm : m < bs.length)
    (ha : ∀ k, k < m → replies.getD k rest = .accept) (he : replies.getD m rest = .stall) :
    txOffer bs replies rest = { sent := bs.take m, replies := replies.drop (m + 1), how := .stall } := by
  induction m generalizing bs replies with
  | zero =>
    cases bs with
    | nil => simp at hm
    | cons b bs =>
      have h0 : replies.headD rest = .stall := by cases replies <;> simpa using he
      simp only [txOffer, h0, List.take_zero]
      cases replies <;> simp
  | succ m ih =>
    cases bs with
    | nil => simp at hm
    | cons b bs =>
      have h0 : replies.headD rest = .accept := by
        have := ha 0 (by omega)
        cases replies <;> simpa using this
      have ht := ih bs replies.tail (by simpa using hm)
        (fun k hk => by have := ha (k + 1) (by omega); cases replies <;> simpa using this)
        (by cases replies <;> simpa using he)
      simp only [txOffer, h0, ht, List.take_succ_cons]
      cases replies <;> simp

/-- Whatever the channel answers, what it takes is a first part of what was offered. -/
theorem txOffer_sent_prefix (bs : List Byte) (replies : List TxReply) (rest : TxReply) :
    ∃ left, bs = (txOffer bs replies rest).sent ++ left ∧
      ((txOffer bs replies rest).how = .done → left = []) ∧
      ((txOffer bs replies rest).how ≠ .done → left ≠ []) := by
  induction bs generalizing replies with
  | nil => exact ⟨[], by simp [txOffer]⟩
  | cons b bs ih =>
    obtain ⟨left, h1, h2, h3⟩ := ih replies.tail
    cases h : replies.headD rest with
    | accept =>
      refine ⟨left, ?_, ?_, ?_⟩
      · simp only [txOffer, h, List.cons_append]
        rw [← h1]
      · simpa only [txOffer, h] using h2
      · simpa only [txOffer, h] using h3
    | error => exact ⟨b :: bs, by simp only [txOffer, h]; simp⟩
    | stall => exact ⟨b :: bs, by simp only [txOffer, h]; simp⟩

/-- The number of bytes the channel takes is at most the number offered. -/
theorem txOffer_sent_length_le (bs : List Byte) (replies : List TxReply) (rest : TxReply) :
    (txOffer bs replies rest).sent.length ≤ bs.length := by
  obtain ⟨left, h, -⟩ := txOffer_sent_prefix bs replies rest
  have := congrArg List.length h
  simp at this
  omega

/-! ### Taking bytes from the receive stream (R132) -/

/-- With fewer bytes than the word lacks, all are taken. -/
theorem takeBytes_partial (q : List Byte) (i : Nat) (r : Vector Byte 4) (h : i + q.length < 4) :
    (takeBytes q i r).1 = [] ∧ (takeBytes q i r).2.1 = i + q.length := by
  induction q generalizing i r with
  | nil => simp [takeBytes]
  | cons c q ih =>
    simp only [List.length_cons] at h
    have := ih (i + 1) (r.setIfInBounds i c) (by omega)
    simp only [takeBytes, show i < 4 by omega, if_true, List.length_cons]
    exact ⟨this.1, by omega⟩

/-- With enough bytes, exactly those the word lacks are taken. -/
theorem takeBytes_full (q : List Byte) (i : Nat) (r : Vector Byte 4) (hi : i ≤ 4) (h : 4 ≤ i + q.length) :
    (takeBytes q i r).1 = q.drop (4 - i) ∧ (takeBytes q i r).2.1 = 4 := by
  induction q generalizing i r with
  | nil => simp at h; exact ⟨by simp [takeBytes], by simp [takeBytes]; omega⟩
  | cons c q ih =>
    by_cases hi4 : i < 4
    · have := ih (i + 1) (r.setIfInBounds i c) (by omega) (by simp at h; omega)
      simp only [takeBytes, hi4, if_true]
      refine ⟨?_, this.2⟩
      rw [this.1, show 4 - i = (4 - (i + 1)) + 1 by omega, List.drop_succ_cons]
    · have : i = 4 := by omega
      subst this
      simp [takeBytes]

/-- A word that stands whole at the front of `rxq` is taken as it stands. -/
theorem takeBytes_word (v r : Vector Byte 4) (q : List Byte) : takeBytes (v.toList ++ q) 0 r = (q, 4, v) := by
  obtain ⟨⟨l⟩, hl⟩ := v
  obtain ⟨⟨m⟩, hm⟩ := r
  simp only [List.size_toArray] at hl hm
  match l, hl with
  | [a, b, c, d], _ =>
    match m, hm with
    | [w, x, y, z], _ => cases q <;> rfl

/-- Each byte taken stands at its place, and the bytes taken before are as they were. -/
theorem takeBytes_getElem (q : List Byte) (i : Nat) (r : Vector Byte 4) (k : Nat) (hk : k < 4) :
    (takeBytes q i r).2.2[k] = if i ≤ k ∧ k < i + q.length then q.getD (k - i) 0 else r[k] := by
  induction q generalizing i r with
  | nil =>
    rw [if_neg (by simp)]
    rfl
  | cons c q ih =>
    by_cases hi : i < 4
    · simp only [takeBytes, hi, if_true, ih, List.length_cons]
      by_cases hik : i = k
      · subst hik
        simp
      · by_cases h1 : i + 1 ≤ k ∧ k < i + 1 + q.length
        · rw [if_pos h1, if_pos (by omega), show k - i = (k - (i + 1)) + 1 by omega, List.getD_cons_succ]
        · have h2 : ¬(i ≤ k ∧ k < i + (q.length + 1)) := by omega
          simp only [h1, h2, if_false]
          exact Vector.getElem_setIfInBounds_ne hk hik
    · simp only [takeBytes, hi, if_false]
      exact (if_neg (by omega)).symm

/-- The word that completes: the bytes taken before and then those at the front of `rxq`. -/
theorem takeBytes_toList (q : List Byte) (i : Nat) (r : Vector Byte 4) (hi : i ≤ 4) (h : 4 ≤ i + q.length) :
    (takeBytes q i r).2.2.toList = r.toList.take i ++ q.take (4 - i) := by
  apply List.ext_getElem
  · simp
    omega
  · intro k h1 h2
    have hk : k < 4 := by simpa using h1
    have := takeBytes_getElem q i r k hk
    simp only [Vector.getElem_toList, this]
    by_cases hik : i ≤ k
    · rw [if_pos (by omega), List.getElem_append_right (by simp; omega)]
      simp only [List.length_take, Vector.length_toList, Nat.min_eq_left hi, List.getElem_take]
      rw [List.getD_eq_getElem q 0 (by omega)]
    · rw [if_neg (by omega), List.getElem_append_left (by simp; omega)]
      simp

/-- One byte event, where a byte waits. -/
theorem takeByte_cons (s : State) (c : Byte) (q : List Byte) (hi : s.rxIdx < 4) (h : s.rxq = c :: q) :
    takeByte s = { s with rxq := q, rxIdx := s.rxIdx + 1, rxbuf := s.rxbuf.setIfInBounds s.rxIdx c } := by
  simp [takeByte, h, takeBytes, hi]

/-- One byte event, where none waits. -/
theorem takeByte_nil (s : State) (h : s.rxq = []) : takeByte s = s := by
  obtain ⟨⟩ := s
  simp only at h
  subst h
  rfl

/-- `rx_idx` never passes 4 (R23). -/
theorem takeBytes_idx_le (q : List Byte) (i : Nat) (r : Vector Byte 4) (h : i ≤ 4) : (takeBytes q i r).2.1 ≤ 4 := by
  induction q generalizing i r with
  | nil => simpa [takeBytes]
  | cons c q ih =>
    simp only [takeBytes]
    split
    · exact ih _ _ (by omega)
    · exact h

/-! ### How the shared operations end -/

/-- The state after an attempt to write the rest of `txbuf`, before what follows from how it ended. -/
abbrev txAdvance (s : State) : State :=
  let r := txOffer (s.txbuf.toList.drop s.txIdx) s.txReplies s.txRest
  { s with txq := s.txq ++ r.sent, txIdx := s.txIdx + r.sent.length, txReplies := r.replies }

/-- TxWrite of a packet arms the read, ends the command with TransportError, or leaves the engine waiting (R140). -/
theorem txWrite_cases (s : State) :
    txWrite s = armRead (txAdvance s) ∨ txWrite s = complete .transportError false 0 (txAdvance s) ∨
      txWrite s = txAdvance s := by
  unfold txWrite
  simp only
  split
  · exact .inl rfl
  · exact .inr (.inl rfl)
  · exact .inr (.inr rfl)

/-- A read that comes up short ends the command, as Timeout or, where SETREG ignores it, as Ok (R211, R219). -/
theorem short_cases (s : State) :
    short s = complete .ok true (wordsRead s) s ∧ s.lat.op = opSetreg ∧ s.lat.ign = true ∨
      short s = complete .timeout false (wordsRead s) s := by
  unfold short
  split
  · next h => exact .inl ⟨rfl, h⟩
  · exact .inr rfl

/-- A tick outside a read has no effect (R133). -/
theorem countTick_of_not_reading (s : State) (h : s.phase ≠ .rxWord) : countTick s = s := by
  simp [countTick, h]

/-- Bytes wait in `rxq` outside a read (R141). -/
theorem receive_of_not_reading (r : Vector Byte 4) (s : State) (h : s.phase ≠ .rxWord) : receive r s = s := by
  simp [receive, h]

/-- What a word that has been read leads to, by the command in progress (R137). -/
theorem afterWord_cases (w : Word) (s : State) :
    (s.lat.op = opSync ∧ afterWord w s = syncWord w s) ∨
    (s.lat.op = opSetreg ∧ afterWord w s = setregWord w s) ∨
    (s.lat.op = opDownload ∧ afterWord w s = downloadWord w s) ∨
    (s.lat.op = opRun ∧ afterWord w s = runWord w s) ∨
    (4 ≤ s.lat.op.toNat ∧ afterWord w s = completeAtAcceptance .illegalCommand s) := by
  unfold afterWord
  by_cases h0 : s.lat.op = opSync
  · exact .inl ⟨h0, by simp [h0]⟩
  · by_cases h1 : s.lat.op = opSetreg
    · exact .inr (.inl ⟨h1, by simp [h1, opSetreg, opSync]⟩)
    · by_cases h2 : s.lat.op = opDownload
      · exact .inr (.inr (.inl ⟨h2, by simp [h2, opSetreg, opSync, opDownload]⟩))
      · by_cases h3 : s.lat.op = opRun
        · exact .inr (.inr (.inr (.inl ⟨h3, by simp [h3, opSetreg, opSync, opDownload, opRun]⟩)))
        · refine .inr (.inr (.inr (.inr ⟨?_, by simp [h0, h1, h2, h3]⟩)))
          revert h0 h1 h2 h3
          generalize s.lat.op = o
          revert o
          decide

/-- A command is accepted in IDLE and waits otherwise (R33). -/
@[simp] theorem whenIdle_idle (f : State → State) (s : State) (h : s.phase = .idle) : whenIdle f s = f s := by
  simp [whenIdle, h]

@[simp] theorem whenIdle_busy (f : State → State) (s : State) (h : s.phase ≠ .idle) : whenIdle f s = s := by
  simp [whenIdle, h]

/-! ### Eliminators: a property of everything a shared operation can answer -/

/-- What an attempt to write a packet can leave (R140). -/
theorem txWrite_elim (s : State) (P : State → Prop)
    (done : ∀ a n b, P (armRead { s with txq := s.txq ++ a, txIdx := n, txReplies := b }))
    (error : ∀ a n b, P (complete .transportError false 0 { s with txq := s.txq ++ a, txIdx := n, txReplies := b }))
    (stall : ∀ a n b, P { s with txq := s.txq ++ a, txIdx := n, txReplies := b }) : P (txWrite s) := by
  rcases txWrite_cases s with h | h | h <;> rw [h]
  · exact done _ _ _
  · exact error _ _ _
  · exact stall _ _ _

/-- What a completed word can lead to (R151 to R153, R171), `u` the state in which the word stands in `rxbuf`. -/
theorem afterWord_elim (w : Word) (u : State) (P : State → Prop)
    (syncBad : u.lat.op = opSync → w ≠ magicSync → P (complete .protocolMismatch false 1 { u with obs0 := w }))
    (syncOk : u.lat.op = opSync → w = magicSync → P (complete .ok false 1 { u with obs0 := w, synced := true }))
    (setregFirst : u.lat.op = opSetreg → u.step = 0 → P (armRead { u with obs0 := w, step := 1 }))
    (setregEnd : ∀ k g, u.lat.op = opSetreg → k = .ok ∨ k = .protocolMismatch →
      P (complete k g 2 { u with obs1 := w }))
    (payload : u.lat.op = opDownload → w = magicAck → P { u with obs0 := w, phase := .txPay, payIdx := 0 })
    (other : ∀ k, u.lat.op = opDownload ∨ u.lat.op = opRun → k = .ok ∨ k = .protocolMismatch →
      P (complete k false 1 { u with obs0 := w }))
    (handshake : u.lat.op = opRun → u.step = 0 → w = magicAck → P (beginSend pSync { u with obs0 := w, step := 1 }))
    (reserved : 4 ≤ u.lat.op.toNat → P (completeAtAcceptance .illegalCommand u)) : P (afterWord w u) := by
  rcases afterWord_cases w u with ⟨ho, e⟩ | ⟨ho, e⟩ | ⟨ho, e⟩ | ⟨ho, e⟩ | ⟨ho, e⟩ <;> rw [e]
  · unfold syncWord
    split
    · next h => exact syncOk ho h
    · next h => exact syncBad ho h
  · unfold setregWord
    split
    · next h => exact setregFirst ho h
    · split
      · exact setregEnd _ _ ho (.inl rfl)
      · split
        · exact setregEnd _ _ ho (.inl rfl)
        · exact setregEnd _ _ ho (.inr rfl)
  · unfold downloadWord
    split
    · next h => exact payload ho h
    · exact other _ (.inl ho) (.inr rfl)
  · unfold runWord
    split
    · next h' =>
      split
      · next h => exact handshake ho h' h
      · exact other _ (.inr ho) (.inr rfl)
    · split
      · exact other _ (.inr ho) (.inl rfl)
      · exact other _ (.inr ho) (.inr rfl)
  · exact reserved ho

/-- What a turn in the payload can leave (R171, R174). -/
theorem payTurn_elim (s : State) (P : State → Prop)
    (block : ∀ n a b c, (∃ x, c = s.plq.drop x) →
      P (finishBlock { s with txq := s.txq ++ a, payIdx := n, txReplies := b, plq := c }))
    (fail : ∀ k n a b c, k = .sourceUnavailable ∨ k = .transportError → (∃ x, c = s.plq.drop x) →
      P (complete k false 1 { s with txq := s.txq ++ a, payIdx := n, txReplies := b, plq := c }))
    (wait : ∀ n a b c, (∃ x, c = s.plq.drop x) → P { s with txq := s.txq ++ a, payIdx := n, txReplies := b, plq := c }) :
    P (payTurn s) := by
  unfold payTurn
  simp only
  split
  · split
    · exact block _ _ _ _ ⟨_, rfl⟩
    · split
      · exact fail _ _ _ _ _ (.inl rfl) ⟨_, rfl⟩
      · exact wait _ _ _ _ ⟨_, rfl⟩
  · exact fail _ _ _ _ _ (.inr rfl) ⟨_, rfl⟩
  · exact wait _ _ _ _ ⟨_, rfl⟩

/-- What a tick can leave (R133). -/
theorem countTick_elim (s : State) (P : State → Prop) (outside : s.phase ≠ .rxWord → P s)
    (count : s.phase = .rxWord → ∀ g, P { takeAvailable s with guardCnt := g })
    (short : s.phase = .rxWord → ∀ k ig g n, (k = .ok ∧ s.lat.op = opSetreg) ∨ k = .timeout →
      P (complete k ig n { takeAvailable s with guardCnt := g })) : P (countTick s) := by
  unfold countTick
  split
  · next hp =>
    simp only
    split
    · rcases short_cases { takeAvailable s with guardCnt := 0 } with ⟨h, h', -⟩ | h <;> rw [h]
      · exact short hp _ _ _ _ (.inl ⟨rfl, h'⟩)
      · exact short hp _ _ _ _ (.inr rfl)
    · exact count hp _
  · next h => exact outside h

/-- What the start of a block or the end of DOWNLOAD can leave (R170, R171). -/
theorem downloadLoop_elim (n : Nat) (s : State) (P : State → Prop)
    (block : s.dlOffset.toNat < s.dlTotal.toNat → P (beginBlock s))
    (finish : s.dlTotal.toNat ≤ s.dlOffset.toNat → P (finishDownload n s)) : P (downloadLoop n s) := by
  unfold downloadLoop
  split
  · next h => exact block h
  · next h => exact finish (Nat.le_of_not_lt h)

end Sys2Proof.Machine
end

