-- ==== Sys2Proof/Laws/PerInstr.lean ====
section
/-! SUPPORT. A property of every instruction as syntax, one lemma per constructor: the encoder writes each row in the format the table
gives it (30_encoding.md rule R93). -/

namespace Sys2Proof.Laws.WireFormat

open Sys2Proof

/-- The format of each row of opcode_table.json. -/
def rowFormat : Instr → Format
  | .sync | .setreg _ _ _ | .downloadDlblk _ _ | .run _ | .runHshake => .packet128
  | .cmdSync | .cmdSetreg _ _ _ _ | .cmdDownload _ _ | .cmdRun _ | .cmdReserved _ => .cmdOp3
  | .respSyncOk | .respAck | .respAck2 | .respRunA | .respRunB => .resp32

/-- The encoder keeps to the row's format, under every setting of the parameters. -/
def Statement (i : Instr) : Prop := ∀ cfg : Config, (encode cfg i).format = rowFormat i

theorem sync : Statement .sync := fun _ => rfl
theorem setreg (addr : Word) (width : Byte) (value : Word) : Statement (.setreg addr width value) := fun _ => rfl
theorem downloadDlblk (addr : Word) (len : Word) : Statement (.downloadDlblk addr len) := fun _ => rfl
theorem run (addr : Word) : Statement (.run addr) := fun _ => rfl
theorem runHshake : Statement .runHshake := fun _ => rfl
theorem cmdSync : Statement .cmdSync := fun _ => rfl
theorem cmdSetreg (addr : Word) (width : Byte) (value : Word) (ign : Bool) :
    Statement (.cmdSetreg addr width value ign) := fun _ => rfl
theorem cmdDownload (addr : Word) (len : Word) : Statement (.cmdDownload addr len) := fun _ => rfl
theorem cmdRun (addr : Word) : Statement (.cmdRun addr) := fun _ => rfl
theorem cmdReserved (x : BitVec 2) : Statement (.cmdReserved x) := fun _ => rfl
theorem respSyncOk : Statement .respSyncOk := fun _ => rfl
theorem respAck : Statement .respAck := fun _ => rfl
theorem respAck2 : Statement .respAck2 := fun _ => rfl
theorem respRunA : Statement .respRunA := fun _ => rfl
theorem respRunB : Statement .respRunB := fun _ => rfl

end Sys2Proof.Laws.WireFormat
end

