-- ==== Sys2Proof/Laws/Step.lean ====
section
/-! SUPPORT. What a step does, said once: which agent moves, and what the engine runs. -/

namespace Sys2Proof.Machine

/-- With an empty schedule the step is the default turn. -/
theorem step_of_sched_nil (s : State) (h : s.sched = []) : step s = defaultTurn { s with progValid := false } := by
  simp [step, nextTurn, h]

/-- With a move due the step is that move. -/
theorem step_of_sched_cons (s : State) (m : Move) (rest : List Move) (h : s.sched = m :: rest) :
    step s = moveTurn m { s with progValid := false, sched := rest } := by
  simp [step, nextTurn, h]

/-- Every row of the table answers a next state. -/
theorem exec_next (i : Instr) (s : State) : ∃ t, exec i s = .next t := by
  cases i <;> exact ⟨_, rfl⟩

/-- ENG's turn always answers a next state. -/
theorem engineTurn_next (s : State) : ∃ t, engineTurn s = .next t := by
  unfold engineTurn
  split
  · exact exec_next _ _
  · exact ⟨_, rfl⟩

/-- The engine's turn, where a row of the table stands. -/
theorem engineTurn_of_fetch (s : State) (i : Instr) (h : fetch s = some i) : engineTurn s = exec i s := by
  simp [engineTurn, h]

/-- The engine's turn, where none stands. -/
theorem engineTurn_of_fetch_none (s : State) (h : fetch s = none) : engineTurn s = .next (engineOther s) := by
  simp [engineTurn, h]

/-- One byte event, where a byte waits and the word lacks more than one. -/
theorem byteTurn_cons (s : State) (c : Byte) (q : List Byte) (hp : s.phase = .rxWord) (hi : s.rxIdx < 3)
    (hq : s.rxq = c :: q) :
    byteTurn s = .next { s with rxq := q, rxIdx := s.rxIdx + 1, rxbuf := s.rxbuf.setIfInBounds s.rxIdx c } := by
  rw [byteTurn, if_pos hp, if_pos hi, takeByte_cons s c q (by omega) hq]

/-- One byte event, where none waits and the word lacks more than one. -/
theorem byteTurn_nil (s : State) (hp : s.phase = .rxWord) (hi : s.rxIdx < 3) (hq : s.rxq = []) : byteTurn s = .next s := by
  rw [byteTurn, if_pos hp, if_pos hi, takeByte_nil s hq]

/-- The byte event of a word's last byte is ENG's turn. -/
theorem byteTurn_last (s : State) (hp : s.phase = .rxWord) (hi : 3 ≤ s.rxIdx) : byteTurn s = engineTurn s := by
  rw [byteTurn, if_pos hp, if_neg (by omega)]

/-- Outside a read there is no byte event. -/
theorem byteTurn_of_not_reading (s : State) (hp : s.phase ≠ .rxWord) : byteTurn s = .next s := by
  rw [byteTurn, if_neg hp]

/-- SEQ's turn changes SEQ's own fields, the command port, the payload source and the channel's rate, and nothing else. -/
theorem seqTurn_frame (s t : State) (h : seqTurn s = .next t) :
    ∃ cmd cv pq pa pe cb q a w st,
      t = { s with
            cmd := cmd, cmdValid := cv, plq := pq, plAvail := pa, plErr := pe, chanBaud := cb
            seqQueue := q, seqActs := a, seqWait := w, seqStop := st } := by
  unfold seqTurn at h
  split at h
  · cases h; exact ⟨_, _, _, _, _, _, _, _, _, _, rfl⟩
  · split at h
    · cases h
      unfold readResult
      repeat' split
      all_goals exact ⟨_, _, _, _, _, _, _, _, _, _, rfl⟩
    · split at h
      · cases h
        unfold doAct
        split <;> exact ⟨_, _, _, _, _, _, _, _, _, _, rfl⟩
      · split at h
        · unfold beginOp at h
          split at h
          · split at h
            · cases h
            · cases h; exact ⟨_, _, _, _, _, _, _, _, _, _, rfl⟩
          · cases h; exact ⟨_, _, _, _, _, _, _, _, _, _, rfl⟩
        · cases h; exact ⟨_, _, _, _, _, _, _, _, _, _, rfl⟩

/-- A run is its first step and then the rest. -/
theorem run_succ (k : Nat) (s t : State) (h : step s = .next t) :
    Host.Core.run Sys2Proof.core (k + 1) s = Host.Core.run Sys2Proof.core k t := by
  simp only [Host.Core.run, Sys2Proof.core, h]

end Sys2Proof.Machine
end

