-- ==== Sys2Proof/Tests/Slice0.lean ====
section
/-! SUPPORT. The model's own tests. Expected values come from the spec: the vectors V<n> of 95_test_vectors.md, the encoding tables of
30_encoding.md. A theorem test_meets_<Name> shows a state and operands that meet every hypothesis of that obligation. -/

namespace Sys2Proof.Tests

open Sys2Proof Sys2Proof.Machine

/-! ### Helpers -/

/-- Parameters for the tests: a guard of 3 ticks, the default byte orders. -/
def testConfig : Config :=
  { timeoutTicks := 3, respLsbFirst := true, hdrLsbFirst := true,
    setupTable := [⟨0x10000000, 32, 1⟩, ⟨0x10000004, 32, 2⟩], baudDivAddr := 0x11223344, fifoToAddr := 0x20,
    fifoToValue := 0x30 }

/-- The same with both byte orders turned round. -/
def msbConfig : Config := { testConfig with respLsbFirst := false, hdrLsbFirst := false }

/-- An idle, synced engine. -/
def idleState : State := { State.reset with cfg := testConfig, synced := true }

/-- An idle engine that has not been synced. -/
def unsynced : State := { idleState with synced := false }

/-- An idle engine that remembers an entry address. -/
def withEntry (addr : Word) : State := { idleState with lastEntryValid := true, lastEntryAddr := addr }

/-- An engine about to send byte `i` of a packet. -/
def sending (op : BitVec 3) (p : Packet) (i : Nat) : State :=
  { idleState with phase := .txHdr, lat := descriptorOf op, txbuf := encodePacket testConfig p, txIdx := i }

/-- An engine reading a word, with `rxq` as given. -/
def reading (op : BitVec 3) (stp : BitVec 1) (q : List Byte) : State :=
  { idleState with phase := .rxWord, lat := descriptorOf op, step := stp, guardCnt := 3, rxq := q }

/-- An engine in the payload of a block of `n` bytes at offset `off` of an image of `total`. -/
def paying (off : Word) (n : Nat) (total : Word) (image : List Byte) : State :=
  { idleState with
    phase := .txPay, lat := { descriptorOf opDownload with addr := 0xc0000000, len := total }
    dlBase := 0xc0000000, dlTotal := total, dlOffset := off, blkLen := n, plq := image
    res := { zeroResult with addr := 0xc0000000 + off } }

/-- The outcome is a next state that `p` holds of. -/
def nextIs (o : Host.Outcome State Fault Refusal) (p : State → Bool) : Bool :=
  match o with
  | .next t => p t
  | .fault _ => false
  | .refused _ => false

/-- The outcome is the refusal of a baud rate below 100. -/
def refusesBaud (o : Host.Outcome State Fault Refusal) (rate : Nat) : Bool :=
  match o with
  | .refused r => decide (r = .baudRateBelow100 rate)
  | .next _ => false
  | .fault _ => false

/-- The bytes of P_SYNC (V5). -/
def syncBytes : List Byte := [0x05, 0x05, 0, 0, 0, 0, 0, 0, 0, 0, 0, 0, 0, 0, 0, 0]

/-! ### WellFormed -/

theorem test_wellFormed_width : (Instr.setreg 0 24 0).wellFormed = false ∧ (Instr.setreg 0 32 0).wellFormed = true := by
  decide

theorem test_wellFormed_length :
    (Instr.downloadDlblk 0 0).wellFormed = false ∧ (Instr.downloadDlblk 0 4097).wellFormed = false ∧
    (Instr.downloadDlblk 0 1).wellFormed = true ∧ (Instr.downloadDlblk 0 4096).wellFormed = true := by decide

/-! ### The codec (V1 to V26) -/

theorem test_swap32 : swap32 0x1000a0a4 = 0xa4a00010 ∧ swap32 0x56787856 = 0x56787856 ∧ swap32 1 = 0x01000000 := by
  decide

/-- V12, V13: the two header orders. -/
theorem test_encode_header_order :
    (encodePacket testConfig ⟨0x1234, 0x01020304, 0x55, 0x0a0b0c0d, 0xf1f2f3f4, 0x99⟩).toList =
      [0x34, 0x12, 1, 2, 3, 4, 0x55, 0x0a, 0x0b, 0x0c, 0x0d, 0xf1, 0xf2, 0xf3, 0xf4, 0x99] ∧
    (encodePacket msbConfig ⟨0x1234, 0x01020304, 0x55, 0x0a0b0c0d, 0xf1f2f3f4, 0x99⟩).toList =
      [0x12, 0x34, 1, 2, 3, 4, 0x55, 0x0a, 0x0b, 0x0c, 0x0d, 0xf1, 0xf2, 0xf3, 0xf4, 0x99] := by decide

/-- V16. -/
theorem test_decode_packet :
    decodePacket testConfig #v[0x34, 0x12, 1, 2, 3, 4, 0x55, 0x0a, 0x0b, 0x0c, 0x0d, 0xf1, 0xf2, 0xf3, 0xf4, 0x99] =
      ⟨0x1234, 0x01020304, 0x55, 0x0a0b0c0d, 0xf1f2f3f4, 0x99⟩ := by decide

/-- V19, V21, V22. -/
theorem test_classify :
    classify ⟨0x0202, 0, 24, 0, 0, 0⟩ = (.setreg, true) ∧ classify ⟨0x0404, 0, 0, 0, 0, 0x55⟩ = (.dlblk, false) ∧
    classify ⟨0x0504, 0, 0, 0, 0, 0⟩ = (.reserved, false) := by decide

/-- V24, V25, V26. -/
theorem test_word :
    wordOfResponse testConfig #v[0x88, 0x88, 0x88, 0x08] = 0x08888888 ∧
    wordOfResponse msbConfig #v[0x88, 0x88, 0x88, 0x08] = 0x88888808 ∧
    wordOfResponse msbConfig #v[0x08, 0x88, 0x88, 0x88] = 0x08888888 ∧
    wordOfResponse testConfig #v[0x12, 0x34, 0x56, 0x78] = 0x78563412 := by decide

/-! ### Decoding, one word of every constructor written out from 30_encoding.md -/

/-- V5. -/
theorem test_decode_sync :
    decodePacketRow testConfig false #v[0x05, 0x05, 0, 0, 0, 0, 0, 0, 0, 0, 0, 0, 0, 0, 0, 0] = .ok .sync := by decide

/-- R86: P_HSHAKE has the same bytes, sent in RUN's second exchange. -/
theorem test_decode_hshake :
    decodePacketRow testConfig true #v[0x05, 0x05, 0, 0, 0, 0, 0, 0, 0, 0, 0, 0, 0, 0, 0, 0] = .ok .runHshake := by decide

/-- V8: 16 bits wide, the value not masked. -/
theorem test_decode_setreg :
    decodePacketRow testConfig false
      #v[0x02, 0x02, 0x80, 0, 0, 0x02, 0x10, 0, 0, 0, 0, 0xde, 0xad, 0xbe, 0xef, 0] =
      .ok (.setreg 0x80000002 16 0xdeadbeef) := by decide

/-- V10. -/
theorem test_decode_dlblk :
    decodePacketRow testConfig false
      #v[0x04, 0x04, 0xc0, 0x00, 0x10, 0x00, 0, 0x00, 0x00, 0x03, 0x88, 0, 0, 0, 0, 0] =
      .ok (.downloadDlblk 0xc0001000 904) := by decide

/-- V11. -/
theorem test_decode_run :
    decodePacketRow testConfig false #v[0x04, 0x04, 0xc0, 0, 0, 0, 0, 0, 0, 0, 0, 0, 0, 0, 0, 0xaa] =
      .ok (.run 0xc0000000) := by decide

/-- R90, R91: the codes of the command port. -/
theorem test_decode_commands :
    decodeCommandRow ⟨0, 1, 2, 3, 4, true⟩ = .cmdSync ∧ decodeCommandRow ⟨1, 1, 2, 3, 4, true⟩ = .cmdSetreg 1 2 3 true ∧
    decodeCommandRow ⟨2, 1, 2, 3, 4, true⟩ = .cmdDownload 1 4 ∧ decodeCommandRow ⟨3, 1, 2, 3, 4, true⟩ = .cmdRun 1 ∧
    decodeCommandRow ⟨4, 1, 2, 3, 4, true⟩ = .cmdReserved 0 ∧ decodeCommandRow ⟨6, 1, 2, 3, 4, true⟩ = .cmdReserved 2 := by
  decide

/-- R89: the five words as received, under the default order. -/
theorem test_decode_responses :
    decodeResponseRow testConfig #v[0xf0, 0xf0, 0xf0, 0xf0] = .ok .respSyncOk ∧
    decodeResponseRow testConfig #v[0x56, 0x78, 0x78, 0x56] = .ok .respAck ∧
    decodeResponseRow testConfig #v[0x12, 0x8a, 0x8a, 0x12] = .ok .respAck2 ∧
    decodeResponseRow testConfig #v[0x88, 0x88, 0x88, 0x08] = .ok .respRunA ∧
    decodeResponseRow testConfig #v[0x88, 0x88, 0x88, 0x88] = .ok .respRunB := by decide

/-- R89: the one word whose bytes depend on RESP_LSB_FIRST. -/
theorem test_decode_run_a_msb :
    decodeResponseRow msbConfig #v[0x08, 0x88, 0x88, 0x88] = .ok .respRunA ∧
    decodeResponseRow msbConfig #v[0x88, 0x88, 0x88, 0x08] = .error .notAResponse := by decide

theorem test_decode_bytes :
    decodeBytes testConfig false syncBytes = .ok .sync ∧
    decodeBytes testConfig false [0x56, 0x78, 0x78, 0x56] = .ok .respAck ∧
    decodeBytes testConfig false [0x56, 0x78, 0x78] = .error .noSuchFormat := by decide

/-! ### Command rows, one step each -/

/-- V40: the packet is V5's. -/
theorem test_cmdSync :
    nextIs (exec .cmdSync unsynced) fun t => t.txbuf.toList == syncBytes && t.phase == .txHdr && t.lat.op == 0 := by decide

/-- V50: the packet is V6's. -/
theorem test_cmdSetreg :
    nextIs (exec (.cmdSetreg 0x1000a0a4 32 9599 false) idleState) fun t =>
      t.txbuf.toList == [0x02, 0x02, 0x10, 0, 0xa0, 0xa4, 0x20, 0, 0, 0, 0, 0, 0, 0x25, 0x7f, 0] && t.phase == .txHdr := by
  decide

/-- V54, V55: not downgraded by `ign`, and before NotSynced. -/
theorem test_cmdSetreg_width :
    (nextIs (exec (.cmdSetreg 0x1000a0a4 0 1 true) idleState) fun t =>
      t.res.kind == .invalidWidth && !t.res.ignored && t.resValid && t.phase == .idle) ∧
    (nextIs (exec (.cmdSetreg 0x1000a0a4 33 1 false) unsynced) fun t =>
      t.res.kind == .invalidWidth && t.res.addr == 0x1000a0a4 && t.txq == []) := by decide

/-- V93: the first header of 4097 bytes at 0xFFFFF000. -/
theorem test_cmdDownload :
    nextIs (exec (.cmdDownload 0xfffff000 4097) { idleState with plAvail := true }) fun t =>
      t.txbuf.toList == [0x04, 0x04, 0xff, 0xff, 0xf0, 0, 0, 0, 0, 0x10, 0, 0, 0, 0, 0, 0] && t.blkLen == 4096 := by decide

/-- V94, V97. -/
theorem test_cmdDownload_ends :
    (nextIs (exec (.cmdDownload 0x1000 0) { idleState with plAvail := true }) fun t =>
      t.res.kind == .ok && t.lastEntryValid && t.lastEntryAddr == 0x1000 && t.res.offset == 0 && !t.progValid) ∧
    (nextIs (exec (.cmdDownload 0x1000 5) { unsynced with plAvail := false }) fun t => t.res.kind == .notSynced) := by decide

/-- V80: `Some(0)` is present. -/
theorem test_cmdRun :
    nextIs (exec (.cmdRun 0) (withEntry 0)) fun t =>
      t.txbuf.toList == [0x04, 0x04, 0, 0, 0, 0, 0, 0, 0, 0, 0, 0, 0, 0, 0, 0xaa] && t.res.addr == 0 && t.phase == .txHdr := by
  decide

/-- V71, V72. -/
theorem test_cmdRun_refused :
    (nextIs (exec (.cmdRun 0) unsynced) fun t => t.res.kind == .noEntryAddress && t.resValid) ∧
    (nextIs (exec (.cmdRun 0xc0000000) unsynced) fun t => t.res.kind == .notSynced && t.txq == []) := by decide

/-- R218: in either session state. -/
theorem test_cmdReserved :
    (nextIs (exec (.cmdReserved 3) idleState) fun t => t.res.kind.code == 8 && t.lat.op == 7 && t.resValid) ∧
    (nextIs (exec (.cmdReserved 0) unsynced) fun t => t.res.kind == .illegalCommand && !t.synced) := by decide

/-! ### Packet rows -/

theorem test_sync : nextIs (exec .sync unsynced) fun t =>
    t.txq == syncBytes && t.phase == .rxWord && t.guardCnt == 3 && t.rxIdx == 0 := by decide

/-- V37: `tx_err` on the sixth byte. -/
theorem test_sync_error :
    nextIs (exec .sync { unsynced with txReplies := [.accept, .accept, .accept, .accept, .accept, .error] }) fun t =>
      t.res.kind == .transportError && t.txq == [0x05, 0x05, 0, 0, 0] && t.phase == .idle := by decide

/-- V7. -/
theorem test_setreg : nextIs (exec (.setreg 0x12345678 8 0xab) (sending 1 (pSetreg 0x12345678 8 0xab) 0)) fun t =>
    t.txq == [0x02, 0x02, 0x12, 0x34, 0x56, 0x78, 0x08, 0, 0, 0, 0, 0, 0, 0, 0xab, 0] && t.phase == .rxWord := by decide

/-- V63: `ign` does not downgrade. -/
theorem test_setreg_error :
    nextIs (exec (.setreg 1 32 1)
      { sending 1 (pSetreg 1 32 1) 0 with txRest := .error, lat := { descriptorOf 1 with ign := true } }) fun t =>
      t.res.kind == .transportError && !t.res.ignored && t.txq == [] := by decide

/-- V9, from the third byte on. -/
theorem test_dlblk : nextIs (exec (.downloadDlblk 0xc0000000 4096) (sending 2 (pDlblk 0xc0000000 4096) 2)) fun t =>
    t.txq == [0xc0, 0, 0, 0, 0, 0, 0, 0x10, 0, 0, 0, 0, 0, 0] && t.phase == .rxWord && t.txIdx == 16 := by decide

/-- V11. -/
theorem test_run : nextIs (exec (.run 0xc0000000) (sending 3 (pRun 0xc0000000) 0)) fun t =>
    t.txq == [0x04, 0x04, 0xc0, 0, 0, 0, 0, 0, 0, 0, 0, 0, 0, 0, 0, 0xaa] && t.phase == .rxWord := by decide

/-- R252: the channel takes two bytes and then no more. -/
theorem test_run_stall :
    nextIs (exec (.run 1) { sending 3 (pRun 1) 0 with txReplies := [.accept, .accept], txRest := .stall }) fun t =>
      t.txq == [0x04, 0x04] && t.txIdx == 2 && t.phase == .txHdr && !t.resValid := by decide

theorem test_hshake : nextIs (exec .runHshake { sending 3 pSync 0 with step := 1 }) fun t =>
    t.txq == syncBytes && t.phase == .rxWord && t.step == 1 && t.synced := by decide

/-! ### Response rows -/

/-- V45: the fifth byte stays. -/
theorem test_respSyncOk : nextIs (exec .respSyncOk { reading 0 0 [0xf0, 0xf0, 0xf0, 0xf0, 0xf0] with synced := false }) fun t =>
    t.synced && t.res.kind == .ok && t.res.obs0 == 0xf0f0f0f0 && t.res.nobs == 1 && t.rxq == [0xf0] := by decide

/-- V76: RUN's handshake does not take it. -/
theorem test_respSyncOk_handshake : nextIs (exec .respSyncOk (reading 3 1 [0xf0, 0xf0, 0xf0, 0xf0])) fun t =>
    t.res.kind == .protocolMismatch && t.res.step == 1 && t.res.obs0 == 0xf0f0f0f0 && t.synced := by decide

/-- R171: the ack opens the payload. -/
theorem test_respAck_block : nextIs (exec .respAck (reading 2 0 [0x56, 0x78, 0x78, 0x56])) fun t =>
    t.phase == .txPay && t.payIdx == 0 && !t.resValid := by decide

/-- R153: the ack of P_RUN sends the handshake. -/
theorem test_respAck_run : nextIs (exec .respAck (reading 3 0 [0x56, 0x78, 0x78, 0x56])) fun t =>
    t.phase == .txHdr && t.step == 1 && t.txbuf.toList == syncBytes && t.txIdx == 0 := by decide

/-- V50: the second word. -/
theorem test_respAck2 :
    nextIs (exec .respAck2 { reading 1 1 [0x12, 0x8a, 0x8a, 0x12] with obs0 := 0x56787856 }) fun t =>
      t.res.kind == .ok && !t.res.ignored && t.res.nobs == 2 && t.res.obs1 == 0x128a8a12 && t.rxq == [] := by decide

/-- V57: as a first word it is kept, and both words are read. -/
theorem test_respAck2_first : nextIs (exec .respAck2 (reading 1 0 [0x12, 0x8a, 0x8a, 0x12, 0x56])) fun t =>
    t.phase == .rxWord && t.step == 1 && t.obs0 == 0x128a8a12 && t.guardCnt == 3 && t.rxq == [0x56] := by decide

/-- V74. -/
theorem test_respRunA : nextIs (exec .respRunA (reading 3 1 [0x88, 0x88, 0x88, 0x08])) fun t =>
    t.res.kind == .ok && t.res.obs0 == 0x08888888 && t.res.step == 1 := by decide

/-- V73. -/
theorem test_respRunB : nextIs (exec .respRunB (reading 3 1 [0x88, 0x88, 0x88, 0x88])) fun t =>
    t.res.kind == .ok && t.res.obs0 == 0x88888888 := by decide

/-- V79's case of a listed word: RUN's first exchange does not take it. -/
theorem test_respRunB_first : nextIs (exec .respRunB (reading 3 0 [0x88, 0x88, 0x88, 0x88])) fun t =>
    t.res.kind == .protocolMismatch && t.res.step == 0 && t.txq == [] := by decide

/-! ### Steps without a row -/

/-- V41: a word of no row. -/
theorem test_unlisted_word : nextIs (step { reading 0 0 [0x00, 0xf0, 0xf0, 0xf0] with synced := false }) fun t =>
    t.res.kind == .protocolMismatch && t.res.obs0 == 0xf0f0f000 && !t.synced := by decide

/-- V62: both words wrong, ignored. -/
theorem test_ignored_mismatch :
    nextIs (step { reading 1 1 [0xff, 0xff, 0xff, 0xff] with
      lat := { descriptorOf 1 with ign := true }, obs0 := 0xffffffff }) fun t =>
      t.res.kind == .ok && t.res.ignored && t.res.nobs == 2 && t.res.obs1 == 0xffffffff := by decide

/-- V42, V59: the last tick, with 3 bytes of a word taken, and in SETREG's second read. -/
theorem test_timeout :
    (nextIs (step { reading 0 0 [0xf0, 0xf0, 0xf0] with guardCnt := 1, sched := [.tick] }) fun t =>
      t.res.kind == .timeout && t.res.nobs == 0 && t.rxq == []) ∧
    (nextIs (step { reading 1 1 [] with guardCnt := 1, sched := [.tick], obs0 := 0x56787856 }) fun t =>
      t.res.kind == .timeout && t.res.nobs == 1 && t.res.step == 1 && t.res.obs0 == 0x56787856) := by decide

/-- R132, R241: one byte event takes one byte, and a reset may come before the next, which stays in `rxq`. -/
theorem test_byte_event :
    (nextIs (step { reading 0 0 [9, 8] with sched := [.engByte, .reset] }) fun t =>
      t.rxq == [8] && t.rxIdx == 1 && t.rxbuf.toList == [9, 0, 0, 0] && t.phase == .rxWord &&
        nextIs (step t) fun u => u.rxq == [8] && u.phase == .idle && !u.resValid) = true := by decide

/-- V34: the bytes waiting at the last tick come first. -/
theorem test_bytes_before_tick :
    nextIs (step { reading 0 0 [0xaa, 0xbb, 0xcc, 0xdd] with guardCnt := 1, sched := [.tick] }) fun t =>
      t.res.kind == .protocolMismatch && t.res.obs0 == 0xddccbbaa := by decide

/-- V61: a short read, ignored. -/
theorem test_ignored_short :
    nextIs (step { reading 1 0 [] with guardCnt := 1, sched := [.tick], lat := { descriptorOf 1 with ign := true } }) fun t =>
      t.res.kind == .ok && t.res.ignored && t.res.nobs == 0 := by decide

/-- V95 in small: the source ends after 2 of 5 bytes. -/
theorem test_source_fails : nextIs (step { paying 0 5 5 [7, 8] with plErr := true }) fun t =>
    t.res.kind == .sourceUnavailable && t.txq == [7, 8] && t.res.offset == 0 && !t.lastEntryValid := by decide

/-- R170, R173: the last block of an image of 5 bytes; the byte after the image is not read. -/
theorem test_payload_ends : nextIs (step (paying 0 5 5 [1, 2, 3, 4, 5, 6])) fun t =>
    t.res.kind == .ok && t.progValid && t.progOffset == 5 && t.progTotal == 5 && t.lastEntryAddr == 0xc0000000 &&
      t.res.offset == 5 && t.plq == [6] && t.txq == [1, 2, 3, 4, 5] := by decide

/-- V104, V103. -/
theorem test_setBaud :
    refusesBaud (step { idleState with seqQueue := [.setBaud 99] }) 99 ∧
    (nextIs (step { idleState with seqQueue := [.setBaud 115250] }) fun t =>
      t.seqActs.length == 3 && t.seqActs.head? == some (.issue ⟨1, 0x11223344, 32, 1151, 0, false⟩)) := by decide

/-- R196: `download` connects its file and issues DOWNLOAD with its size. -/
theorem test_seq_download : nextIs (step { idleState with seqQueue := [.download (some [1, 2, 3]) 7] }) fun t =>
    t.seqActs == [.connect (some [1, 2, 3]), .issue { descriptorOf 2 with addr := 7, len := 3 }] := by decide

/-- P3: the implicit sync before `run()`. -/
theorem test_implicit_sync : nextIs (step { unsynced with seqQueue := [.run none] }) fun t =>
    t.seqActs == [.issue ⟨0, 0, 0, 0, 0, false⟩, .issue ⟨3, 0, 0, 0, 0, false⟩] := by decide

/-! ### The first instruction after reset -/

theorem test_fetchWord_command : nextIs (step (State.reset.withFetchWord 3 0)) fun t => t.phase == .txHdr := by decide

theorem test_fetchWord_packet :
    nextIs (step (State.reset.withFetchWord 128 0x0404c0000000000000000000000000aa)) fun t =>
      t.txq == [0x04, 0x04, 0xc0, 0, 0, 0, 0, 0, 0, 0, 0, 0, 0, 0, 0, 0xaa] && t.phase == .rxWord := by decide

theorem test_fetchWord_response : nextIs (step (State.reset.withFetchWord 32 0xf0f0f0f0)) fun t =>
    t.synced && t.res.kind == .ok := by decide

/-! ### Witnesses: every obligation's hypotheses are met -/

/-- A checked next state is one that exists. -/
theorem next_exists (o : Host.Outcome State Fault Refusal) (p : State → Bool) (h : nextIs o p = true) :
    ∃ t, o = .next t ∧ p t = true := by
  cases o with
  | next t => exact ⟨t, rfl, h⟩
  | fault r => cases h
  | refused r => cases h

theorem test_meets_Swap32ReversesBytes :
    (0x56787856 : Word).extractLsb' 24 8 = (0x56787856 : Word).extractLsb' 0 8 ∧
    (0x56787856 : Word).extractLsb' 16 8 = (0x56787856 : Word).extractLsb' 8 8 := by decide

theorem test_meets_EncodeLaysOutFields :
    pSync.header = 0x0505 ∧ (pSetreg 1 8 2).header = 0x0202 ∧ (pDlblk 1 2).header = 0x0404 ∧ (pRun 1).header = 0x0404 := by
  decide

theorem test_meets_ResponseWordAndItsBytes : testConfig.respLsbFirst = true := by decide

theorem test_meets_RowsDecodeBack :
    (Instr.setreg 0xffffffff 8 0xffffffff).wellFormed = true ∧ (Instr.setreg 0 16 0).wellFormed = true ∧
    (Instr.setreg 0 32 0).wellFormed = true ∧ (Instr.downloadDlblk 0 1).wellFormed = true ∧
    (Instr.downloadDlblk 0xffffffff 4096).wellFormed = true ∧ Instr.runHshake.wellFormed = true ∧
    (Instr.cmdReserved 3).wellFormed = true ∧ Instr.respRunA.wellFormed = true := by decide

theorem test_meets_AcceptedBytesEncodeBack :
    decodePacketRow msbConfig true #v[0x05, 0x05, 0, 0, 0, 0, 0, 0, 0, 0, 0, 0, 0, 0, 0, 0] = .ok .runHshake ∧
    decodePacketRow testConfig false #v[0x04, 0x04, 0, 0, 0, 0, 0, 0, 0, 0x10, 0, 0, 0, 0, 0, 0] =
      .ok (.downloadDlblk 0 4096) ∧
    decodeResponseRow msbConfig #v[0x88, 0x88, 0x88, 0x88] = .ok .respRunB := by decide

/-- The clauses in order, each at an edge of its range. -/
theorem test_meets_PacketsOutsideTableRejected :
    ((⟨0x0504, 0, 0, 0, 0, 0⟩ : Packet).header ≠ 0x0505 ∧ (⟨0x0504, 0, 0, 0, 0, 0⟩ : Packet).header ≠ 0x0202 ∧
      (⟨0x0504, 0, 0, 0, 0, 0⟩ : Packet).header ≠ 0x0404) ∧
    ((⟨0x0505, 1, 0, 0, 0, 0⟩ : Packet).address ≠ 0 ∧ (⟨0x0505, 0, 1, 0, 0, 0⟩ : Packet).type ≠ 0 ∧
      (⟨0x0505, 0, 0, 1, 0, 0⟩ : Packet).length ≠ 0 ∧ (⟨0x0505, 0, 0, 0, 1, 0⟩ : Packet).data ≠ 0 ∧
      (⟨0x0505, 0, 0, 0, 0, 0xaa⟩ : Packet).endFlag ≠ 0) ∧
    ((pSetreg 0 33 0).header = 0x0202 ∧ (pSetreg 0 33 0).type ≠ 8 ∧ (pSetreg 0 33 0).type ≠ 16 ∧
      (pSetreg 0 33 0).type ≠ 32) ∧
    ((⟨0x0202, 0, 8, 1, 0, 0⟩ : Packet).length ≠ 0 ∧ (⟨0x0202, 0, 32, 0, 0, 0xaa⟩ : Packet).endFlag ≠ 0) ∧
    ((⟨0x0404, 0, 0, 0, 0, 1⟩ : Packet).endFlag ≠ 0 ∧ (⟨0x0404, 0, 0, 0, 0, 1⟩ : Packet).endFlag ≠ 0xaa) ∧
    ((pDlblk 0 0).header = 0x0404 ∧ (pDlblk 0 0).endFlag = 0 ∧ (pDlblk 0 0).length = 0 ∧
      4096 < (pDlblk 0 4097).length.toNat) ∧
    ((⟨0x0404, 0, 1, 1, 0, 0⟩ : Packet).length ≠ 0 ∧ (⟨0x0404, 0, 1, 1, 0, 0⟩ : Packet).type ≠ 0 ∧
      (⟨0x0404, 0, 0, 4096, 1, 0⟩ : Packet).length.toNat ≤ 4096 ∧ (⟨0x0404, 0, 0, 4096, 1, 0⟩ : Packet).data ≠ 0) ∧
    ((⟨0x0404, 0, 1, 0, 0, 0xaa⟩ : Packet).type ≠ 0 ∧ (⟨0x0404, 0, 0, 1, 0, 0xaa⟩ : Packet).length ≠ 0 ∧
      (⟨0x0404, 0, 0, 0, 1, 0xaa⟩ : Packet).data ≠ 0) := by decide

theorem test_meets_CmdSyncBeginsExchange : unsynced.phase = .idle ∧ idleState.phase = .idle := by decide

theorem test_meets_CmdSetregBeginsExchange :
    idleState.phase = .idle ∧ idleState.synced = true ∧
    ((8 : Byte) = 8 ∨ (8 : Byte) = 16 ∨ (8 : Byte) = 32) ∧ ((16 : Byte) = 8 ∨ (16 : Byte) = 16 ∨ (16 : Byte) = 32) ∧
    ((32 : Byte) = 8 ∨ (32 : Byte) = 16 ∨ (32 : Byte) = 32) := by decide

theorem test_meets_CmdDownloadBeginsFirstBlock :
    { idleState with plAvail := true }.phase = .idle ∧ { idleState with plAvail := true }.synced = true ∧
    { idleState with plAvail := true }.plAvail = true ∧ (1 : Word) ≠ 0 ∧ (0xffffffff : Word) ≠ 0 := by decide

theorem test_meets_CmdDownloadOfNothingSucceeds :
    { idleState with plAvail := true }.phase = .idle ∧ { idleState with plAvail := true }.synced = true ∧
    { idleState with plAvail := true }.plAvail = true := by decide

/-- An explicit target, and the sentinel with a remembered address, 0 among them. -/
theorem test_meets_CmdRunBeginsExchange :
    (idleState.phase = .idle ∧ idleState.synced = true ∧ (1 : Word) ≠ 0) ∧
    ((withEntry 0).phase = .idle ∧ (withEntry 0).synced = true ∧ (withEntry 0).lastEntryValid = true ∧
      (withEntry 0).lastEntryAddr = 0) := by decide

theorem test_meets_ReservedCommandIsIllegal : unsynced.phase = .idle ∧ idleState.phase = .idle := by decide

theorem test_meets_IllegalWidthIsInvalidWidth :
    unsynced.phase = .idle ∧ (0 : Byte) ≠ 8 ∧ (0 : Byte) ≠ 16 ∧ (0 : Byte) ≠ 32 ∧ (255 : Byte) ≠ 8 ∧ (255 : Byte) ≠ 16 ∧
    (255 : Byte) ≠ 32 := by decide

theorem test_meets_RunWithoutEntryIsNoEntryAddress :
    unsynced.phase = .idle ∧ unsynced.lastEntryValid = false ∧ idleState.lastEntryValid = false := by decide

/-- The three forms. -/
theorem test_meets_UnsyncedCommandsAreNotSynced :
    unsynced.phase = .idle ∧ unsynced.synced = false ∧
    (∃ addr width value ign, Instr.cmdSetreg 0 8 0 true = .cmdSetreg addr width value ign ∧
      (width = 8 ∨ width = 16 ∨ width = 32)) ∧
    (∃ addr len, Instr.cmdDownload 0 0 = .cmdDownload addr len) ∧
    (∃ addr : Word, Instr.cmdRun 1 = .cmdRun addr ∧ (addr ≠ 0 ∨ unsynced.lastEntryValid = true)) ∧
    { withEntry 5 with synced := false }.lastEntryValid = true :=
  ⟨rfl, rfl, ⟨0, 8, 0, true, rfl, .inl rfl⟩, ⟨0, 0, rfl⟩, ⟨1, rfl, .inl (by decide)⟩, rfl⟩

theorem test_meets_DownloadWithoutSourceIsSourceUnavailable :
    idleState.phase = .idle ∧ idleState.synced = true ∧ idleState.plAvail = false := by decide

theorem test_meets_RowsWaitOutsideTheirPhase :
    ((reading 0 0 []).phase ≠ .idle ∧ isCommandRow .cmdSync = true ∧ isCommandRow (.cmdReserved 0) = true) ∧
    (wordOfRow .respRunA = some 0x08888888 ∧ idleState.phase ≠ .rxWord) := by decide

/-- The clauses: nothing latched, acceptance, reset; and a turn of ENG's, one byte event and a tick while busy. -/
theorem test_meets_OperandsAreSampledAtAcceptance :
    (∃ t, step (reading 0 0 [1]) = .next t ∧ (t.lat == descriptorOf 0) = true) ∧
    (∃ t, step { idleState with cmd := descriptorOf 7, cmdValid := true } = .next t ∧
      (t.lat == descriptorOf 7) = true) ∧
    (∃ t, step { reading 3 0 [] with sched := [.reset] } = .next t ∧ (t.lat == descriptorOf 0) = true) ∧
    (∀ m ∈ [Move.eng, .engByte, .tick],
      { reading 3 0 [1] with sched := [m] }.phase ≠ .idle ∧ { reading 3 0 [1] with sched := [m] }.sched.head? = some m ∧
      nextIs (step { reading 3 0 [1] with sched := [m] }) (fun t => t.cmd == descriptorOf 0) = true) :=
  ⟨next_exists _ _ (by decide), next_exists _ _ (by decide), next_exists _ _ (by decide), by decide⟩

/-- Every packet row, from the first byte, from the last, and with nothing left. -/
theorem test_meets_PacketRowsSendTheirBytes :
    (packetOf .sync = some pSync ∧ packetOf (.setreg 1 8 2) = some (pSetreg 1 8 2) ∧
      packetOf (.downloadDlblk 1 2) = some (pDlblk 1 2) ∧ packetOf (.run 1) = some (pRun 1) ∧
      packetOf .runHshake = some pSync) ∧
    sendFrom idleState = 0 ∧ ChannelAccepts 16 idleState ∧
    sendFrom (sending 0 pSync 15) = 15 ∧ ChannelAccepts (16 - 15) (sending 0 pSync 15) ∧
    sendFrom (sending 0 pSync 16) ≤ 16 := by decide

/-- `m` at both ends of its range. -/
theorem test_meets_PacketRowsTransportError :
    (0 < 16 - sendFrom (sending 0 pSync 15) ∧ ChannelAccepts 0 { sending 0 pSync 15 with txRest := .error } ∧
      channelAnswer 0 { sending 0 pSync 15 with txRest := .error } = .error) ∧
    (15 < 16 - sendFrom idleState ∧
      ChannelAccepts 15 { idleState with txReplies := List.replicate 15 .accept, txRest := .error } ∧
      channelAnswer 15 { idleState with txReplies := List.replicate 15 .accept, txRest := .error } = .error) := by decide

theorem test_meets_PacketRowsWaitForChannel :
    (0 < 16 - sendFrom (sending 0 pSync 15) ∧ ChannelAccepts 0 { sending 0 pSync 15 with txRest := .stall } ∧
      channelAnswer 0 { sending 0 pSync 15 with txRest := .stall } = .stall) ∧
    (15 < 16 - sendFrom idleState ∧
      ChannelAccepts 15 { idleState with txReplies := List.replicate 15 .accept, txRest := .stall } ∧
      channelAnswer 15 { idleState with txReplies := List.replicate 15 .accept, txRest := .stall } = .stall) := by decide

/-- Both outcomes of the compare. -/
theorem test_meets_ResponseRowsAnswerSync :
    wordOfRow .respSyncOk = some 0xf0f0f0f0 ∧ wordOfRow .respAck = some 0x56787856 ∧ (reading 0 0 []).phase = .rxWord ∧
    (reading 0 0 []).lat.op = 0 := by decide

theorem test_meets_ResponseRowsFirstWordOfSetreg :
    wordOfRow .respAck = some 0x56787856 ∧ (reading 1 0 []).phase = .rxWord ∧ (reading 1 0 []).lat.op = 1 ∧
    (reading 1 0 []).step = 0 := by decide

theorem test_meets_ResponseRowsSecondWordOfSetreg :
    wordOfRow .respAck2 = some 0x128a8a12 ∧ wordOfRow .respRunB = some 0x88888888 ∧ (reading 1 1 []).phase = .rxWord ∧
    (reading 1 1 []).lat.op = 1 ∧ (reading 1 1 []).step = 1 := by decide

theorem test_meets_ResponseRowsAnswerBlockHeader :
    wordOfRow .respAck = some 0x56787856 ∧ wordOfRow .respAck2 = some 0x128a8a12 ∧ (0x128a8a12 : Word) ≠ 0x56787856 ∧
    (reading 2 0 []).phase = .rxWord ∧ (reading 2 0 []).lat.op = 2 := by decide

theorem test_meets_ResponseRowsAnswerRun :
    wordOfRow .respAck = some 0x56787856 ∧ wordOfRow .respRunA = some 0x08888888 ∧ (0x08888888 : Word) ≠ 0x56787856 ∧
    (reading 3 0 []).phase = .rxWord ∧ (reading 3 0 []).lat.op = 3 ∧ (reading 3 0 []).step = 0 := by decide

theorem test_meets_ResponseRowsAnswerHandshake :
    wordOfRow .respRunA = some 0x08888888 ∧ wordOfRow .respRunB = some 0x88888888 ∧
    wordOfRow .respSyncOk = some 0xf0f0f0f0 ∧ (reading 3 1 []).phase = .rxWord ∧ (reading 3 1 []).lat.op = 3 ∧
    (reading 3 1 []).step = 1 := by decide

/-- Each clause: SETREG's first word, its second, the other commands; from the first byte, and with three bytes taken before. -/
theorem test_meets_UnlistedWordsAreMismatches :
    (∀ o ∈ [reading 1 0 [0, 0xf0, 0xf0, 0xf0, 1], reading 1 1 [0, 0xf0, 0xf0, 0xf0, 1], reading 0 0 [0, 0xf0, 0xf0, 0xf0, 1],
        reading 2 0 [0, 0xf0, 0xf0, 0xf0, 1],
        { reading 3 1 [0xf0, 1] with rxIdx := 3, rxbuf := #v[0x00, 0xf0, 0xf0, 0x55] }],
      o.sched = [] ∧ o.phase = .rxWord ∧ o.rxIdx ≤ 3 ∧
      (#v[0x00, 0xf0, 0xf0, 0xf0] : Vector Byte 4).toList =
        o.rxbuf.toList.take o.rxIdx ++ o.rxq.take (4 - o.rxIdx) ∧ o.lat.op.toNat < 4) ∧
    decodeResponseRow testConfig #v[0x00, 0xf0, 0xf0, 0xf0] = .error .notAResponse := by decide

/-- A turn: no byte, three bytes, and a fourth not yet there. One byte event: the first byte, the third, the fourth, none
waiting, and no read. -/
theorem test_meets_PartialWordIsTaken :
    (∀ o ∈ [reading 0 0 [], reading 0 0 [1, 2, 3], { reading 0 0 [] with rxIdx := 3 }],
      o.sched = [] ∧ o.phase = .rxWord ∧ o.rxIdx + o.rxq.length < 4) ∧
    (∀ o ∈ [reading 0 0 [1, 2, 3, 4], { reading 0 0 [1, 2, 3, 4] with rxIdx := 2 }],
      { o with sched := [.engByte] }.sched = .engByte :: [] ∧ o.phase = .rxWord ∧ o.rxIdx < 3 ∧
      o.rxq = 1 :: [2, 3, 4]) ∧
    ({ reading 0 0 [4] with rxIdx := 3 }.phase = .rxWord ∧ { reading 0 0 [4] with rxIdx := 3 }.rxIdx = 3) ∧
    ((paying 0 5 5 [1]).phase ≠ .rxWord ∧ (reading 0 0 []).rxIdx < 3 ∧ (reading 0 0 []).rxq = []) := by decide

theorem test_meets_TickCountsGuard :
    { reading 0 0 [1, 2, 3] with guardCnt := 2, sched := [.tick] }.sched = .tick :: [] ∧
    { reading 0 0 [1, 2, 3] with guardCnt := 2, sched := [.tick] }.phase = .rxWord ∧
    { reading 0 0 [1, 2, 3] with guardCnt := 2, sched := [.tick] }.rxIdx + [1, 2, 3].length < 4 ∧
    1 < { reading 0 0 [1, 2, 3] with guardCnt := 2, sched := [.tick] }.guardCnt := by decide

/-- Each command, both reads of SETREG, ignoring and not. -/
theorem test_meets_TickEndsReadShort :
    ∀ o ∈ [reading 0 0 [1, 2, 3], reading 1 0 [], reading 1 1 [],
        { reading 1 1 [] with lat := { descriptorOf 1 with ign := true } }, reading 2 0 [], reading 3 1 []],
      { o with guardCnt := 1, sched := [.tick] }.sched = .tick :: [] ∧ o.phase = .rxWord ∧
      o.rxIdx + o.rxq.length < 4 ∧ { o with guardCnt := 1, sched := [.tick] }.guardCnt = 1 := by decide

theorem test_meets_BytesComeBeforeTick :
    ({ reading 0 0 [1, 2, 3, 4] with sched := [.tick] }.sched = .tick :: [] ∧ (reading 0 0 [1, 2, 3, 4]).phase = .rxWord ∧
      4 ≤ (reading 0 0 [1, 2, 3, 4]).rxIdx + (reading 0 0 [1, 2, 3, 4]).rxq.length) ∧
    ({ idleState with sched := [.tick] }.sched = .tick :: [] ∧ { idleState with sched := [.tick] }.phase ≠ .rxWord) := by
  decide

theorem test_meets_TimeoutOnlyWhenReceiveEmpty :
    (reading 0 0 [1, 2, 3]).phase = .rxWord ∧
    ∃ t, step { reading 0 0 [1, 2, 3] with guardCnt := 1, sched := [.tick] } = .next t ∧
      (t.phase == .idle && t.resValid && t.res.kind == .timeout) = true :=
  ⟨rfl, next_exists _ _ (by decide)⟩

/-- A packet with its last byte to send, and a payload with its last byte to send. -/
theorem test_meets_SilentChannelHangs :
    (∀ o ∈ [{ sending 0 pSync 15 with txRest := .stall }, { paying 0 5 5 [9] with txRest := .stall, payIdx := 4 }],
      o.sched = [] ∧ o.txReplies = [] ∧ o.txRest = .stall ∧
      (o.phase = .txHdr ∧ o.txIdx < 16 ∨ o.phase = .txPay ∧ o.payIdx < o.blkLen ∧ o.plq ≠ [])) := by decide

/-- A whole block to send, and one of which nothing is left. -/
theorem test_meets_PayloadThenNextHeader :
    ∀ o ∈ [paying 0 5 6 [1, 2, 3, 4, 5, 6], { paying 0 5 6 [6] with payIdx := 5 }],
      o.sched = [] ∧ o.phase = .txPay ∧ o.payIdx ≤ o.blkLen ∧ o.blkLen - o.payIdx ≤ o.plq.length ∧
      ChannelAccepts (o.blkLen - o.payIdx) o ∧ (5 : Word) = o.dlOffset + BitVec.ofNat 32 o.blkLen ∧
      (5 : Word).toNat < o.dlTotal.toNat := by decide

theorem test_meets_LastPayloadEndsDownload :
    ∀ o ∈ [paying 0 5 5 [1, 2, 3, 4, 5, 6], { paying 0 5 5 [] with payIdx := 5 }],
      o.sched = [] ∧ o.phase = .txPay ∧ o.lat.op = 2 ∧ o.payIdx ≤ o.blkLen ∧ o.blkLen - o.payIdx ≤ o.plq.length ∧
      ChannelAccepts (o.blkLen - o.payIdx) o ∧ (5 : Word) = o.dlOffset + BitVec.ofNat 32 o.blkLen ∧
      o.dlTotal.toNat ≤ (5 : Word).toNat := by decide

/-- No byte delivered, and all but one. -/
theorem test_meets_PayloadSourceFailure :
    ∀ o ∈ [{ paying 0 5 5 [] with plErr := true }, { paying 0 5 5 [1, 2, 3, 4] with plErr := true }],
      o.sched = [] ∧ o.phase = .txPay ∧ o.lat.op = 2 ∧ o.plErr = true ∧ o.plq.length < o.blkLen - o.payIdx ∧
      ChannelAccepts o.plq.length o := by decide

theorem test_meets_PayloadTransportError :
    (0 < 5 - (paying 0 5 5 [1]).payIdx ∧ 0 < (paying 0 5 5 [1]).plq.length ∧
      (paying 0 5 5 [1]).lat.op = 2 ∧ (paying 0 5 5 [1]).phase = .txPay ∧ (paying 0 5 5 [1]).sched = [] ∧
      channelAnswer 0 { paying 0 5 5 [1] with txRest := .error } = .error) ∧
    (4 < (paying 0 5 5 [1, 2, 3, 4, 5]).blkLen - (paying 0 5 5 [1, 2, 3, 4, 5]).payIdx ∧
      4 < (paying 0 5 5 [1, 2, 3, 4, 5]).plq.length ∧
      ChannelAccepts 4 { paying 0 5 5 [1, 2, 3, 4, 5] with txReplies := List.replicate 4 .accept, txRest := .error } ∧
      channelAnswer 4 { paying 0 5 5 [1, 2, 3, 4, 5] with txReplies := List.replicate 4 .accept, txRest := .error } =
        .error) := by decide

/-- The clauses in order: an empty schedule, ENG's move, a descriptor, a packet, a response word from its first
byte and one of which three bytes were taken before. -/
theorem test_meets_StepRunsFetchedInstruction :
    ((sending 0 pSync 0).sched = [] ∧ fetch (sending 0 pSync 0) = some .sync) ∧
    ({ idleState with sched := [.eng], cmdValid := true }.sched = .eng :: [] ∧
      fetch { idleState with sched := [.eng], cmdValid := true } = some .cmdSync) ∧
    ({ idleState with cmdValid := true }.phase = .idle ∧ { idleState with cmdValid := true }.cmdValid = true) ∧
    ((sending 3 (pRun 7) 0).phase = .txHdr ∧
      decodePacketRow (sending 3 (pRun 7) 0).cfg
        (decide ((sending 3 (pRun 7) 0).lat.op = 3 ∧ (sending 3 (pRun 7) 0).step = 1)) (sending 3 (pRun 7) 0).txbuf =
        .ok (.run 7)) ∧
    ((∀ o ∈ [reading 0 0 [0x56, 0x78, 0x78, 0x56, 1],
        { reading 0 0 [0x56, 1] with rxIdx := 3, rxbuf := #v[0x56, 0x78, 0x78, 0] }],
      o.phase = .rxWord ∧ o.rxIdx ≤ 3 ∧
      (#v[0x56, 0x78, 0x78, 0x56] : Vector Byte 4).toList =
        o.rxbuf.toList.take o.rxIdx ++ o.rxq.take (4 - o.rxIdx)) ∧
      decodeResponseRow testConfig #v[0x56, 0x78, 0x78, 0x56] = .ok .respAck) := by decide

theorem test_meets_ResetValuesOfTheSpec : { reading 2 0 [1] with sched := [.reset] }.sched = .reset :: [] := by decide

theorem test_meets_ResetEventResetsTheBlock :
    { paying 0 5 5 [1] with sched := [.reset, .tick] }.sched = .reset :: [.tick] := by decide

/-- A SETREG in its second read meets the invariant. -/
theorem reading_meets_Inv : Inv { reading 1 1 [1, 2] with lat := { descriptorOf 1 with width := 8 } } := by
  constructor <;> decide

theorem test_meets_StepKeepsInvariant :
    Inv { reading 1 1 [1, 2] with lat := { descriptorOf 1 with width := 8 } } ∧
    ∃ t, step { reading 1 1 [1, 2] with lat := { descriptorOf 1 with width := 8 } } = .next t ∧ (t.rxIdx == 2) = true :=
  ⟨reading_meets_Inv, next_exists _ _ (by decide)⟩

theorem test_meets_SendingEngineHoldsTablePacket :
    Inv { sending 3 pSync 15 with step := 1 } ∧ { sending 3 pSync 15 with step := 1 }.phase = .txHdr := by
  constructor
  · constructor <;> decide
  · decide

/-- Both clauses: SYNC's success, and reset. -/
theorem test_meets_SyncedSetOnlyBySync :
    (∃ t, step { reading 0 0 [0xf0, 0xf0, 0xf0, 0xf0] with synced := false } = .next t ∧ (t.synced != false) = true) ∧
    (∃ t, step { idleState with sched := [.reset] } = .next t ∧ (t.synced != true) = true) :=
  ⟨next_exists _ _ (by decide), next_exists _ _ (by decide)⟩

/-- The clauses: unchanged, written at the end of a payload, written by an empty download, cleared by reset. -/
theorem test_meets_LastEntryWrittenOnlyByDownload :
    (∃ t, step (withEntry 4) = .next t ∧ (t.lastEntryAddr == 4) = true) ∧
    (∃ t, step (paying 0 5 5 [1, 2, 3, 4, 5]) = .next t ∧ (t.lastEntryAddr == 0xc0000000) = true) ∧
    (∃ t, step { idleState with cmd := { descriptorOf 2 with addr := 8 }, cmdValid := true, plAvail := true } = .next t ∧
      (t.lastEntryValid && t.lastEntryAddr == 8) = true) ∧
    (∃ t, step { withEntry 4 with sched := [.reset] } = .next t ∧ (!t.lastEntryValid) = true) :=
  ⟨next_exists _ _ (by decide), next_exists _ _ (by decide), next_exists _ _ (by decide), next_exists _ _ (by decide)⟩

/-- Reset changes no parameter; the rate kept, and set by SEQ. -/
theorem test_meets_ParametersAndBaudRateKept :
    (∃ t, step { idleState with sched := [.reset], chanBaud := some 9600 } = .next t ∧
      (t.cfg == testConfig && t.chanBaud == some 9600) = true) ∧
    (∃ t, step { idleState with seqActs := [.setBaudRate 100] } = .next t ∧ (t.chanBaud == some 100) = true) :=
  ⟨next_exists _ _ (by decide), next_exists _ _ (by decide)⟩

/-- The clauses: ENG sends, DEV takes; ENG takes in a turn, in one byte event and before a tick, DEV sends; ENG takes payload, SRC
delivers, SEQ connects. -/
theorem test_meets_StreamsAreFirstInFirstOut :
    (∃ t, step (sending 0 pSync 14) = .next t ∧ (t.txq == [0, 0]) = true) ∧
    (∃ t, step { idleState with txq := [1, 2], sched := [.devTake] } = .next t ∧ (t.txq == [2]) = true) ∧
    (∃ t, step (reading 0 0 [1, 2, 3, 4, 5]) = .next t ∧ (t.rxq == [5]) = true) ∧
    (∃ t, step { reading 0 0 [1, 2, 3, 4, 5] with sched := [.engByte] } = .next t ∧ (t.rxq == [2, 3, 4, 5]) = true) ∧
    (∃ t, step { reading 0 0 [1, 2] with sched := [.tick] } = .next t ∧ (t.rxq == []) = true) ∧
    (∃ t, step { idleState with rxq := [1], sched := [.devSend 2] } = .next t ∧ (t.rxq == [1, 2]) = true) ∧
    (∃ t, step (paying 0 2 2 [1, 2, 3]) = .next t ∧ (t.plq == [3] && t.txq == [1, 2]) = true) ∧
    (∃ t, step { paying 0 2 2 [1] with sched := [.source true [2] false] } = .next t ∧ (t.plq == [1, 2]) = true) ∧
    (∃ t, step { idleState with plq := [1], seqActs := [.connect (some [2])] } = .next t ∧ (t.plq == [2]) = true) :=
  ⟨next_exists _ _ (by decide), next_exists _ _ (by decide), next_exists _ _ (by decide), next_exists _ _ (by decide),
    next_exists _ _ (by decide), next_exists _ _ (by decide), next_exists _ _ (by decide), next_exists _ _ (by decide),
    next_exists _ _ (by decide)⟩

/-- The ack that opens the payload; and the ways `plq` changes outside it, SRC's and SEQ's, a missing file included. -/
theorem test_meets_PayloadOnlyAfterAck :
    ((reading 2 0 [0x56, 0x78, 0x78, 0x56]).phase ≠ .txPay ∧
      ∃ t, step (reading 2 0 [0x56, 0x78, 0x78, 0x56]) = .next t ∧ (t.phase == .txPay) = true) ∧
    (∃ t, step { idleState with plq := [1], sched := [.source true [2] false] } = .next t ∧ (t.plq == [1, 2]) = true) ∧
    (∃ t, step { idleState with plq := [1], seqActs := [.connect none] } = .next t ∧ (t.plq == []) = true) :=
  ⟨⟨by decide, next_exists _ _ (by decide)⟩, next_exists _ _ (by decide), next_exists _ _ (by decide)⟩

theorem test_meets_RunSentinelIsRunOfLastEntry :
    (withEntry 0xc0000000).lastEntryValid = true ∧ (withEntry 0xc0000000).lastEntryAddr ≠ 0 ∧
    (withEntry 0xc0000000).phase = .idle ∧
    ∃ t, exec (.cmdRun 0) (withEntry 0xc0000000) = .next t ∧ (t.phase == .txHdr) = true :=
  ⟨by decide, by decide, by decide, next_exists _ _ (by decide)⟩

theorem test_meets_SyncCommandRuns :
    let s := { unsynced with cmdValid := true, rxq := [0xf0, 0xf0, 0xf0, 0xf0, 9] }
    s.sched = [] ∧ s.phase = .idle ∧ s.cmdValid = true ∧ s.cmd.op = 0 ∧ ChannelAccepts 16 s ∧
    s.rxq = (#v[0xf0, 0xf0, 0xf0, 0xf0] : Vector Byte 4).toList ++ [9] := by decide

theorem test_meets_SetregCommandRuns :
    let s := { idleState with
      cmd := { descriptorOf 1 with width := 16 }, cmdValid := true
      rxq := [0x56, 0x78, 0x78, 0x56, 0x12, 0x8a, 0x8a, 0x12] }
    s.sched = [] ∧ s.phase = .idle ∧ s.cmdValid = true ∧ s.cmd.op = 1 ∧ s.synced = true ∧
    (s.cmd.width = 8 ∨ s.cmd.width = 16 ∨ s.cmd.width = 32) ∧ ChannelAccepts 16 s ∧
    s.rxq = (#v[0x56, 0x78, 0x78, 0x56] : Vector Byte 4).toList ++
      ((#v[0x12, 0x8a, 0x8a, 0x12] : Vector Byte 4).toList ++ []) := by decide

/-- An explicit target, and the sentinel. -/
theorem test_meets_RunCommandRuns :
    ∀ s ∈ [{ withEntry 0 with
        cmd := descriptorOf 3, cmdValid := true, rxq := [0x56, 0x78, 0x78, 0x56, 0x88, 0x88, 0x88, 0x08] },
      { idleState with
        cmd := { descriptorOf 3 with addr := 1 }, cmdValid := true
        rxq := [0x56, 0x78, 0x78, 0x56, 0x88, 0x88, 0x88, 0x08] }],
    s.sched = [] ∧ s.phase = .idle ∧ s.cmdValid = true ∧ s.cmd.op = 3 ∧ s.synced = true ∧
    (s.cmd.addr ≠ 0 ∧ s.cmd.addr = s.cmd.addr ∨ s.cmd.addr = 0 ∧ s.lastEntryValid = true) ∧ ChannelAccepts 32 s ∧
    s.rxq = (responseOfWord s.cfg 0x56787856).toList ++
      ((#v[0x88, 0x88, 0x88, 0x08] : Vector Byte 4).toList ++ []) := by decide

/-- A synced engine with a download of these bytes, and one more, presented, and the acks waiting. -/
def downloading (image : List Byte) : State :=
  { idleState with
    cmd := { descriptorOf 2 with addr := 0x20000000, len := BitVec.ofNat 32 image.length }, cmdValid := true
    plAvail := true, plq := image ++ [9]
    rxq := (List.replicate (blockCount image.length) (responseOfWord testConfig 0x56787856).toList).flatten }

/-- An empty image, and images of one block, one full block and two. -/
theorem test_meets_DownloadCommandRuns (n : Nat) (hn : n ∈ [0, 1, 4096, 4097]) :
    let image := List.replicate n (7 : Byte)
    let s := downloading image
    s.sched = [] ∧ s.phase = .idle ∧ s.cmdValid = true ∧ s.cmd.op = 2 ∧ s.synced = true ∧ s.plAvail = true ∧
    s.txReplies = [] ∧ s.txRest = .accept ∧ image.length < 2 ^ 32 ∧ s.cmd.len = BitVec.ofNat 32 image.length ∧
    s.plq = image ++ [9] ∧
    s.rxq =
      (List.replicate (blockCount image.length) (responseOfWord s.cfg 0x56787856).toList).flatten ++ [] := by
  refine ⟨rfl, rfl, rfl, rfl, rfl, rfl, rfl, rfl, ?_, rfl, rfl, (List.append_nil _).symm⟩
  simp only [List.length_replicate]
  simp only [List.mem_cons, List.not_mem_nil, or_false] at hn
  omega

/-- After Ok and after a failure; and a queue that has stopped. -/
theorem test_meets_SequencerStopsAtFirstFailure :
    (∀ o ∈ [{ idleState with resValid := true, seqWait := true },
        { idleState with resValid := true, seqWait := true, res := { zeroResult with kind := .timeout } }],
      o.sched = [] ∧ o.phase = .idle ∧ o.cmdValid = false ∧ o.resValid = true ∧ o.seqWait = true ∧ o.seqStop = none) ∧
    ({ idleState with seqStop := some .timeout }.sched = [] ∧ { idleState with seqStop := some .timeout }.phase = .idle ∧
      { idleState with seqStop := some .timeout }.cmdValid = false ∧
      { idleState with seqStop := some .timeout }.seqStop.isSome = true) := by decide

/-- Every expansion, the rates at the edge; and every action. -/
theorem test_meets_SequencerExpandsAndActs :
    (∀ op ∈ [SeqOp.setBaud 100, .setBaud 99, .setup, .sync, .setRegister 1 24 2, .download (some []) 1,
        .download none 1, .run none, .run (some 0)],
      { idleState with seqQueue := [op] }.sched = [] ∧ { idleState with seqQueue := [op] }.phase = .idle ∧
      { idleState with seqQueue := [op] }.cmdValid = false ∧ { idleState with seqQueue := [op] }.seqStop = none ∧
      { idleState with seqQueue := [op] }.seqWait = false ∧ { idleState with seqQueue := [op] }.seqActs = [] ∧
      { idleState with seqQueue := [op] }.seqQueue = op :: []) ∧
    (∀ a ∈ [SeqAct.issue (descriptorOf 3), .connect (some [1]), .connect none, .setBaudRate 100],
      { idleState with seqActs := [a] }.sched = [] ∧ { idleState with seqActs := [a] }.phase = .idle ∧
      { idleState with seqActs := [a] }.cmdValid = false ∧ { idleState with seqActs := [a] }.seqStop = none ∧
      { idleState with seqActs := [a] }.seqWait = false ∧ { idleState with seqActs := [a] }.seqActs = a :: []) := by
  constructor
  · intro op _
    exact ⟨rfl, rfl, rfl, rfl, rfl, rfl, rfl⟩
  · intro a _
    exact ⟨rfl, rfl, rfl, rfl, rfl, rfl⟩

end Sys2Proof.Tests
end

section
/-! SUPPORT. The frame of ENG, and which agent a step moves. ENG writes registers of the block and moves bytes of the streams; what
lies outside the block (`State.outside`) is as it was after every turn of ENG's, every tick and every byte event. -/

namespace Sys2Proof.Machine

/-! ### What ENG never writes (R3, R28, R255) -/

/-- The part of the state that ENG only reads, or does not see: the parameters, the operand registers, SRC's flags, the channel's
standing answer and its rate, SEQ's own state, and the moves to come. The streams are not in it, nor `txReplies`: ENG moves
their bytes and uses the answers up. -/
structure Outside where
  cfg : Config
  cmd : Descriptor
  plAvail : Bool
  plErr : Bool
  txRest : TxReply
  chanBaud : Option Nat
  seqQueue : List SeqOp
  seqActs : List SeqAct
  seqWait : Bool
  seqStop : Option ResKind
  sched : List Move

/-- That part of a state. -/
def State.outside (s : State) : Outside where
  cfg := s.cfg
  cmd := s.cmd
  plAvail := s.plAvail
  plErr := s.plErr
  txRest := s.txRest
  chanBaud := s.chanBaud
  seqQueue := s.seqQueue
  seqActs := s.seqActs
  seqWait := s.seqWait
  seqStop := s.seqStop
  sched := s.sched

/-- States that agree outside the block have the same parameters. -/
theorem cfg_eq_of_outside_eq {s t : State} (h : t.outside = s.outside) : t.cfg = s.cfg := congrArg Outside.cfg h

/-- States that agree outside the block have the same channel rate. -/
theorem chanBaud_eq_of_outside_eq {s t : State} (h : t.outside = s.outside) : t.chanBaud = s.chanBaud :=
  congrArg Outside.chanBaud h

/-! ### The shared operations -/

@[simp] theorem takeAvailable_outside (s : State) : (takeAvailable s).outside = s.outside := rfl

@[simp] theorem takeByte_outside (s : State) : (takeByte s).outside = s.outside := rfl

@[simp] theorem txWrite_outside (s : State) : (txWrite s).outside = s.outside := by
  apply txWrite_elim s (fun t => t.outside = s.outside) <;> intros <;> rfl

@[simp] theorem sendPacket_outside (p : Packet) (s : State) : (sendPacket p s).outside = s.outside := txWrite_outside _

@[simp] theorem downloadLoop_outside (n : Nat) (s : State) : (downloadLoop n s).outside = s.outside := by
  apply downloadLoop_elim n s (fun t => t.outside = s.outside) <;> intros <;> rfl

@[simp] theorem startDownload_outside (s : State) : (startDownload s).outside = s.outside := downloadLoop_outside _ _

@[simp] theorem finishBlock_outside (s : State) : (finishBlock s).outside = s.outside := downloadLoop_outside _ _

@[simp] theorem payTurn_outside (s : State) : (payTurn s).outside = s.outside := by
  apply payTurn_elim s (fun t => t.outside = s.outside)
  case block => intros; exact finishBlock_outside _
  all_goals intros; rfl

@[simp] theorem afterWord_outside (w : Word) (s : State) : (afterWord w s).outside = s.outside := by
  apply afterWord_elim w s (fun t => t.outside = s.outside) <;> intros <;> rfl

@[simp] theorem receive_outside (r : Vector Byte 4) (s : State) : (receive r s).outside = s.outside := by
  unfold receive
  split
  · exact afterWord_outside _ _
  · rfl

@[simp] theorem countTick_outside (s : State) : (countTick s).outside = s.outside := by
  apply countTick_elim s (fun t => t.outside = s.outside) <;> intros <;> rfl

theorem whenIdle_outside (f : State → State) (s : State) (hf : (f s).outside = s.outside) :
    (whenIdle f s).outside = s.outside := by
  unfold whenIdle
  split
  · exact hf
  · rfl

theorem whenSynced_outside (f : State → State) (s : State) (hf : (f s).outside = s.outside) :
    (whenSynced f s).outside = s.outside := by
  unfold whenSynced
  split
  · exact hf
  · rfl

/-! ### The rows and the turns (R150, R140, R132) -/

theorem execCmdSetreg_outside (addr : Word) (width : Byte) (value : Word) (ign : Bool) (s t : State)
    (h : execCmdSetreg addr width value ign s = .next t) : t.outside = s.outside := by
  cases h
  apply whenIdle_outside
  simp only
  split
  · exact whenSynced_outside _ _ rfl
  · rfl

theorem execCmdDownload_outside (addr len : Word) (s t : State) (h : execCmdDownload addr len s = .next t) :
    t.outside = s.outside := by
  cases h
  apply whenIdle_outside
  apply whenSynced_outside
  split
  · exact startDownload_outside _
  · rfl

theorem execCmdRun_outside (addr : Word) (s t : State) (h : execCmdRun addr s = .next t) : t.outside = s.outside := by
  cases h
  apply whenIdle_outside
  simp only
  split
  · rfl
  · exact whenSynced_outside _ _ rfl

/-- No row of the table writes outside the block. -/
theorem exec_outside (i : Instr) (s t : State) (h : exec i s = .next t) : t.outside = s.outside := by
  cases i with
  | cmdSetreg addr width value ign => exact execCmdSetreg_outside addr width value ign s t h
  | cmdDownload addr len => exact execCmdDownload_outside addr len s t h
  | cmdRun addr => exact execCmdRun_outside addr s t h
  | cmdSync | cmdReserved => cases h; exact whenIdle_outside _ _ rfl
  | sync | setreg | downloadDlblk | run | runHshake => cases h; exact sendPacket_outside _ _
  | respSyncOk | respAck | respAck2 | respRunA | respRunB => cases h; exact receive_outside _ _

@[simp] theorem engineOther_outside (s : State) : (engineOther s).outside = s.outside := by
  unfold engineOther
  split
  · rfl
  · exact txWrite_outside s
  · split
    · exact receive_outside _ s
    · exact takeAvailable_outside s
  · exact payTurn_outside s

/-- ENG's turn writes nothing outside the block. -/
theorem engineTurn_outside (s t : State) (h : engineTurn s = .next t) : t.outside = s.outside := by
  cases hf : fetch s with
  | some i => exact exec_outside i s t (engineTurn_of_fetch s i hf ▸ h)
  | none =>
    rw [engineTurn_of_fetch_none s hf] at h
    cases h
    exact engineOther_outside s

/-- A tick writes nothing outside the block. -/
theorem tickTurn_outside (s t : State) (h : tickTurn s = .next t) : t.outside = s.outside := by
  unfold tickTurn at h
  split at h
  · exact engineTurn_outside s t h
  · cases h
    exact countTick_outside s

/-- A byte event writes nothing outside the block. -/
theorem byteTurn_outside (s t : State) (h : byteTurn s = .next t) : t.outside = s.outside := by
  unfold byteTurn at h
  split at h
  · split at h
    · cases h
      exact takeByte_outside s
    · exact engineTurn_outside s t h
  · cases h
    rfl

/-! ### SEQ's turn, and which agent moves -/

@[simp] theorem readResult_chanBaud (s : State) : (readResult s).chanBaud = s.chanBaud := by
  unfold readResult
  split
  · split <;> rfl
  · rfl

/-- SEQ's turn (R190): stopped it does nothing, waiting it looks for its result, otherwise it does its next action or, where
none is left, puts the next command's actions in place. -/
theorem seqTurn_cases {s t : State} (h : seqTurn s = .next t) :
    (s.seqStop.isSome = true ∧ t = s) ∨
    (s.seqStop = none ∧ s.seqWait = true ∧ t = readResult s) ∨
    (s.seqStop = none ∧ s.seqWait = false ∧ ∃ a rest, s.seqActs = a :: rest ∧ t = doAct a { s with seqActs := rest }) ∨
    (s.seqStop = none ∧ s.seqWait = false ∧ s.seqActs = [] ∧
      ∃ ops acts, t = { s with seqQueue := ops, seqActs := acts }) := by
  unfold seqTurn at h
  split at h
  · next hstop => cases h; exact .inl ⟨hstop, rfl⟩
  next hstop =>
  have hstop : s.seqStop = none := by simpa using hstop
  split at h
  · next hwait => cases h; exact .inr (.inl ⟨hstop, hwait, rfl⟩)
  next hwait =>
  have hwait : s.seqWait = false := by simpa using hwait
  split at h
  · next a rest hacts => cases h; exact .inr (.inr (.inl ⟨hstop, hwait, a, rest, hacts, rfl⟩))
  next hacts =>
  refine .inr (.inr (.inr ⟨hstop, hwait, hacts, ?_⟩))
  split at h
  · unfold beginOp at h
    split at h
    · split at h
      · cases h
      · cases h; exact ⟨_, _, rfl⟩
    · cases h; exact ⟨_, _, rfl⟩
  · cases h; exact ⟨s.seqQueue, s.seqActs, rfl⟩

/-- SEQ's turn sets the channel's rate only by the action that names it (R193, R227). -/
theorem seqTurn_chanBaud {s t : State} (h : seqTurn s = .next t) :
    t.chanBaud = s.chanBaud ∨
      ∃ rate : Nat, s.seqStop = none ∧ s.seqWait = false ∧ s.seqActs.head? = some (.setBaudRate rate) ∧
        t.chanBaud = some rate := by
  obtain ⟨-, rfl⟩ | ⟨-, -, rfl⟩ | ⟨hstop, hwait, a, rest, hacts, rfl⟩ | ⟨-, -, -, ops, acts, rfl⟩ := seqTurn_cases h
  · exact .inl rfl
  · exact .inl (readResult_chanBaud s)
  · cases a with
    | setBaudRate rate => exact .inr ⟨rate, hstop, hwait, by rw [hacts]; rfl, rfl⟩
    | connect | issue => exact .inl rfl
  · exact .inl rfl

/-- The state in which the mover of a step finds the machine: the strobe has fallen and the move named is gone (R29, log 2). -/
def State.atMove (s : State) : State := { s with progValid := false, sched := s.sched.tail }

theorem atMove_of_sched_nil {s : State} (h : s.sched = []) : s.atMove = { s with progValid := false } := by
  simp [State.atMove, h]

theorem atMove_of_sched_cons {s : State} {m : Move} {rest : List Move} (h : s.sched = m :: rest) :
    s.atMove = { s with progValid := false, sched := rest } := by
  simp [State.atMove, h]

/-- ENG has work while a command is in progress or presented. -/
theorem engineHasWork_iff (s : State) : engineHasWork s = true ↔ s.phase ≠ .idle ∨ s.cmdValid = true := by
  simp [engineHasWork, State.busy]

/-- A step is ENG's turn, SEQ's turn, or another move that the schedule names (log 2). -/
theorem step_mover {s t : State} (h : step s = .next t) :
    (EngMoves s ∧ engineTurn s.atMove = .next t) ∨
    (SeqMoves s ∧ seqTurn s.atMove = .next t) ∨
    ∃ m, s.sched.head? = some m ∧ m ≠ .eng ∧ m ≠ .seq ∧ moveTurn m s.atMove = .next t := by
  cases hs : s.sched with
  | nil =>
    rw [step_of_sched_nil s hs, ← atMove_of_sched_nil hs, defaultTurn] at h
    split at h
    · next hwork => exact .inl ⟨.inr ⟨hs, (engineHasWork_iff s.atMove).1 hwork⟩, h⟩
    · next hwork =>
      have hidle : s.phase = .idle ∧ s.cmdValid = false := by
        simpa [engineHasWork_iff, State.atMove] using hwork
      exact .inr (.inl ⟨.inr ⟨hs, hidle⟩, h⟩)
  | cons m rest =>
    have hhead : s.sched.head? = some m := by rw [hs]; rfl
    rw [step_of_sched_cons s m rest hs, ← atMove_of_sched_cons hs] at h
    by_cases heng : m = .eng
    · subst heng
      exact .inl ⟨.inl hhead, h⟩
    by_cases hseq : m = .seq
    · subst hseq
      exact .inr (.inl ⟨.inl hhead, h⟩)
    exact .inr (.inr ⟨m, rfl, heng, hseq, h⟩)

end Sys2Proof.Machine
end

section
/-! The parameters and the channel's rate over every step (R28, R193, R227, R248). -/

namespace Sys2Proof.Machine

/-- Every move but SEQ's keeps the parameters and the channel's rate, the reset event included (R28, R248). -/
theorem moveTurn_keeps_cfg_chanBaud {m : Move} {s t : State} (hm : m ≠ .seq) (h : moveTurn m s = .next t) :
    t.cfg = s.cfg ∧ t.chanBaud = s.chanBaud := by
  have ofOutside : t.outside = s.outside → t.cfg = s.cfg ∧ t.chanBaud = s.chanBaud := fun ho =>
    ⟨cfg_eq_of_outside_eq ho, chanBaud_eq_of_outside_eq ho⟩
  cases m with
  | seq => exact absurd rfl hm
  | eng => exact ofOutside (engineTurn_outside s t h)
  | engByte => exact ofOutside (byteTurn_outside s t h)
  | tick => exact ofOutside (tickTurn_outside s t h)
  | devSend | devTake | operands | request | program | channel | source | reset => cases h; exact ⟨rfl, rfl⟩

/-- SEQ's turn keeps the parameters (R28). -/
theorem seqTurn_cfg {s t : State} (h : seqTurn s = .next t) : t.cfg = s.cfg := by
  obtain ⟨_, _, _, _, _, _, _, _, _, _, rfl⟩ := seqTurn_frame s t h
  rfl

/-- Settles O51: every move but SEQ's keeps both, and SEQ's turn writes the rate only by `setBaudRate`. -/
theorem parametersAndBaudRateKept : Obligations.ParametersAndBaudRateKept := by
  unfold Obligations.ParametersAndBaudRateKept
  intro s t h
  obtain ⟨-, heng⟩ | ⟨hmoves, hseq⟩ | ⟨m, -, -, hm, hmove⟩ := step_mover h
  · have ho := engineTurn_outside s.atMove t heng
    exact ⟨cfg_eq_of_outside_eq (s := s.atMove) ho, .inl (chanBaud_eq_of_outside_eq (s := s.atMove) ho)⟩
  · refine ⟨seqTurn_cfg (s := s.atMove) hseq, ?_⟩
    obtain hkeep | ⟨rate, hset⟩ := seqTurn_chanBaud hseq
    · exact .inl hkeep
    · exact .inr ⟨rate, hmoves, hset⟩
  · obtain ⟨hcfg, hbaud⟩ := moveTurn_keeps_cfg_chanBaud hm hmove
    exact ⟨hcfg, .inl hbaud⟩

end Sys2Proof.Machine
end

section
/-! SUPPORT. The decoder of a fetched packet or response word loses nothing: what it names is what stands in the bytes, and what
the encoder writes for a row it names again (R89, R113). -/

namespace Sys2Proof.Machine

/-- DECODE after ENCODE gives the packet back (R113). -/
@[simp] theorem decodePacket_encodePacket (cfg : Config) (p : Packet) : decodePacket cfg (encodePacket cfg p) = p := by
  cases horder : cfg.hdrLsbFirst <;> simp [decodePacket, encodePacket, horder]

/-- ENCODE after DECODE gives the bytes back (R113). -/
@[simp] theorem encodePacket_decodePacket (cfg : Config) (b : Vector Byte 16) :
    encodePacket cfg (decodePacket cfg b) = b := by
  obtain ⟨⟨l⟩, hl⟩ := b
  match l, hl with
  | [_, _, _, _, _, _, _, _, _, _, _, _, _, _, _, _], _ =>
    cases horder : cfg.hdrLsbFirst <;> simp [decodePacket, encodePacket, horder]

/-- WORD_BYTES after WORD gives the bytes back (R115). -/
@[simp] theorem responseOfWord_wordOfResponse (cfg : Config) (r : Vector Byte 4) :
    responseOfWord cfg (wordOfResponse cfg r) = r := by
  obtain ⟨⟨l⟩, hl⟩ := r
  match l, hl with
  | [_, _, _, _], _ =>
    cases horder : cfg.respLsbFirst <;> simp [responseOfWord, wordOfResponse, horder]

/-- A packet row that is decoded stands for the packet the bytes are (R86). -/
theorem packetOf_of_decodePacketRow {cfg : Config} {handshake : Bool} {b : Vector Byte 16} {i : Instr}
    (h : decodePacketRow cfg handshake b = .ok i) : packetOf i = some (decodePacket cfg b) := by
  unfold decodePacketRow at h
  simp only at h
  generalize decodePacket cfg b = p at h ⊢
  split at h
  · cases h
  · split at h
    · next hp => cases h; rw [hp]; cases handshake <;> rfl
    · cases h
  · split at h
    · cases h
    · split at h
      · next hp => cases h; rw [hp]; rfl
      · cases h
  · split at h
    · cases h
    · split at h
      · cases h
      · split at h
        · next hp => cases h; rw [hp]; rfl
        · cases h
  · split at h
    · next hp => cases h; rw [hp]; rfl
    · cases h

/-- A well-formed packet row is what its packet decodes to, in the exchange it is sent in (R86, R114). -/
theorem decodePacketRow_encodePacket (cfg : Config) (handshake : Bool) {i : Instr} {p : Packet}
    (hp : packetOf i = some p) (hwf : i.wellFormed = true) (hsync : i = .sync → handshake = false)
    (hhshake : i = .runHshake → handshake = true) : decodePacketRow cfg handshake (encodePacket cfg p) = .ok i := by
  cases i <;> cases hp
  case sync => simp [decodePacketRow, classify, pSync, hdrSync, hsync]
  case setreg addr width value =>
    simp only [Instr.wellFormed] at hwf
    simp [decodePacketRow, classify, pSetreg, hdrSync, hdrSetreg, hwf]
  case downloadDlblk addr len =>
    have hlen : ¬len.toNat = 0 ∧ len.toNat ≤ blockMax := by simpa [Instr.wellFormed, Nat.one_le_iff_ne_zero] using hwf
    simp [decodePacketRow, classify, pDlblk, hdrSync, hdrSetreg, hdrDlrun, endFinal, hlen]
  case run addr => simp [decodePacketRow, classify, pRun, hdrSync, hdrSetreg, hdrDlrun, endFinal]
  case runHshake => simp [decodePacketRow, classify, pSync, hdrSync, hhshake]

/-- A response row that is decoded stands for the word the bytes are (R89). -/
theorem wordOfRow_of_decodeResponseRow {cfg : Config} {r : Vector Byte 4} {i : Instr}
    (h : decodeResponseRow cfg r = .ok i) : wordOfRow i = some (wordOfResponse cfg r) := by
  unfold decodeResponseRow at h
  simp only at h
  generalize wordOfResponse cfg r = w at h ⊢
  split_ifs at h with hw hw hw hw hw <;> (cases h; rw [hw]; rfl)

end Sys2Proof.Machine
end

section
/-! SUPPORT. ENG's turn, phase by phase. The row a fetch finds never does more than the engine does where no row stands: a
sending engine writes `txbuf`, a reading one completes its word, so that each phase is one operation. -/

namespace Sys2Proof.Machine

/-- A packet row sends its packet (R86, R140). -/
theorem exec_of_packetOf {i : Instr} {p : Packet} (hp : packetOf i = some p) (s : State) :
    exec i s = .next (sendPacket p s) := by
  cases i <;> cases hp <;> rfl

/-- A response row completes the read with its word (R89, R132). -/
theorem exec_of_wordOfRow {i : Instr} {w : Word} (hw : wordOfRow i = some w) (s : State) :
    exec i s = .next (receive (responseOfWord s.cfg w) s) := by
  cases i <;> cases hw <;> rfl

/-- Sending the packet that `txbuf` holds goes on with it (R140). -/
theorem sendPacket_txbuf {p : Packet} {s : State} (hphase : s.phase = .txHdr) (hp : encodePacket s.cfg p = s.txbuf) :
    sendPacket p s = txWrite s := by
  rw [sendPacket, hp, if_pos hphase, ← hphase]

/-- The turn of an idle engine: the descriptor presented, if there is one (R33, R230). -/
theorem engineTurn_idle {s : State} (hphase : s.phase = .idle) :
    engineTurn s = if s.cmdValid = true then exec (decodeCommandRow s.cmd) s else .next s := by
  have hf : fetch s = if s.cmdValid = true then some (decodeCommandRow s.cmd) else none := by
    simp only [fetch, hphase]
  split
  · next hreq => exact engineTurn_of_fetch s _ (by rw [hf, if_pos hreq])
  · next hreq =>
    rw [engineTurn_of_fetch_none s (by rw [hf, if_neg hreq]), engineOther, hphase]

/-- The turn of a sending engine, whatever `txbuf` holds (R140). -/
theorem engineTurn_txHdr {s : State} (hphase : s.phase = .txHdr) : engineTurn s = .next (txWrite s) := by
  have hf : fetch s = (decodePacketRow s.cfg (inHandshake s) s.txbuf).toOption := by simp only [fetch, hphase]
  cases hrow : decodePacketRow s.cfg (inHandshake s) s.txbuf with
  | ok i =>
    rw [engineTurn_of_fetch s i (by rw [hf, hrow]; rfl), exec_of_packetOf (packetOf_of_decodePacketRow hrow),
      sendPacket_txbuf hphase (encodePacket_decodePacket _ _)]
  | error => rw [engineTurn_of_fetch_none s (by rw [hf, hrow]; rfl), engineOther, hphase]

/-- The turn of a reading engine: the word that is ready, listed or not, or what there is of it (R132, R137). -/
theorem engineTurn_rxWord {s : State} (hphase : s.phase = .rxWord) :
    engineTurn s = .next (if wordReady s = true then receive (readyBytes s) s else takeAvailable s) := by
  by_cases hready : wordReady s = true
  · have hf : fetch s = (decodeResponseRow s.cfg (readyBytes s)).toOption := by
      simp only [fetch, hphase, if_pos hready]
    rw [if_pos hready]
    cases hrow : decodeResponseRow s.cfg (readyBytes s) with
    | ok i =>
      rw [engineTurn_of_fetch s i (by rw [hf, hrow]; rfl), exec_of_wordOfRow (wordOfRow_of_decodeResponseRow hrow),
        responseOfWord_wordOfResponse]
    | error =>
      rw [engineTurn_of_fetch_none s (by rw [hf, hrow]; rfl)]
      simp only [engineOther, hphase, if_pos hready]
  · have hf : fetch s = none := by simp only [fetch, hphase, if_neg hready]
    rw [engineTurn_of_fetch_none s hf]
    simp only [engineOther, hphase, if_neg hready]

/-- The turn of an engine in a payload (R171). -/
theorem engineTurn_txPay {s : State} (hphase : s.phase = .txPay) : engineTurn s = .next (payTurn s) := by
  rw [engineTurn_of_fetch_none s (by simp only [fetch, hphase]), engineOther, hphase]

end Sys2Proof.Machine
end

section
/-! SUPPORT. Acceptance of a command (R150): what each command row does to an idle engine, and everything that acceptance of the
descriptor presented can lead to. -/

namespace Sys2Proof.Machine

/-! ### The command rows on an idle engine -/

theorem exec_cmdSync_idle {s : State} (h : s.phase = .idle) :
    exec .cmdSync s = .next (beginSend pSync (accept { s.cmd with op := opSync } s)) := by
  simp only [exec, execCmdSync, whenIdle_idle _ _ h]

theorem exec_cmdSetreg_idle {s : State} (h : s.phase = .idle) (addr : Word) (width : Byte) (value : Word) (ign : Bool) :
    exec (.cmdSetreg addr width value ign) s = .next
      (let u := accept { s.cmd with op := opSetreg, addr := addr, width := width, value := value, ign := ign } s
      if legalWidth width then whenSynced (beginSend (pSetreg addr width value)) u
      else completeAtAcceptance .invalidWidth u) := by
  simp only [exec, execCmdSetreg, whenIdle_idle _ _ h]

theorem exec_cmdDownload_idle {s : State} (h : s.phase = .idle) (addr len : Word) :
    exec (.cmdDownload addr len) s = .next
      (whenSynced (fun u => if u.plAvail then startDownload u else completeAtAcceptance .sourceUnavailable u)
        (accept { s.cmd with op := opDownload, addr := addr, len := len } s)) := by
  simp only [exec, execCmdDownload, whenIdle_idle _ _ h]

/-- RUN with a target (R153). -/
theorem exec_cmdRun_idle {s : State} (h : s.phase = .idle) {addr target : Word} (ht : runTarget addr s = some target) :
    exec (.cmdRun addr) s = .next
      (whenSynced (fun u => beginSend (pRun target) { u with res := { u.res with addr := target } })
        (accept { s.cmd with op := opRun, addr := addr } s)) := by
  have ht' : runTarget addr (accept { s.cmd with op := opRun, addr := addr } s) = some target := ht
  simp only [exec, execCmdRun, whenIdle_idle _ _ h, ht']

/-- RUN of the sentinel without `last_entry` (R214). -/
theorem exec_cmdRun_idle_none {s : State} (h : s.phase = .idle) {addr : Word} (ht : runTarget addr s = none) :
    exec (.cmdRun addr) s = .next
      (completeAtAcceptance .noEntryAddress (accept { s.cmd with op := opRun, addr := addr } s)) := by
  have ht' : runTarget addr (accept { s.cmd with op := opRun, addr := addr } s) = none := ht
  simp only [exec, execCmdRun, whenIdle_idle _ _ h, ht']

theorem exec_cmdReserved_idle {s : State} (h : s.phase = .idle) (x : BitVec 2) :
    exec (.cmdReserved x) s = .next
      (completeAtAcceptance .illegalCommand (accept { s.cmd with op := (1 : BitVec 1) ++ x } s)) := by
  simp only [exec, execCmdReserved, whenIdle_idle _ _ h]

/-- On a synced engine an accepted command goes on (R150). -/
theorem whenSynced_accept {f : State → State} {d : Descriptor} {s : State} (h : s.synced = true) :
    whenSynced f (accept d s) = f (accept d s) := by
  rw [whenSynced, accept_synced, if_pos h]

/-- On an engine that is not synced it ends NotSynced (R217). -/
theorem whenSynced_accept_unsynced {f : State → State} {d : Descriptor} {s : State} (h : s.synced = false) :
    whenSynced f (accept d s) = completeAtAcceptance .notSynced (accept d s) := by
  rw [whenSynced, accept_synced, if_neg (by simp [h])]

/-- Past its checks a command does what it does, or the engine is not synced (R150, R217). -/
theorem whenSynced_elim {f : State → State} {s : State} (P : State → Prop)
    (synced : s.synced = true → P (f s)) (unsynced : P (completeAtAcceptance .notSynced s)) : P (whenSynced f s) := by
  unfold whenSynced
  split
  · next h => exact synced h
  · exact unsynced

/-! ### The descriptor presented -/

/-- A reserved code is its top bit and the two bits the row keeps (R91). -/
theorem reserved_op_eq {o : BitVec 3} (h0 : o ≠ opSync) (h1 : o ≠ opSetreg) (h2 : o ≠ opDownload) (h3 : o ≠ opRun) :
    (1 : BitVec 1) ++ o.extractLsb' 0 2 = o := by
  revert o
  decide

/-- What acceptance of the descriptor presented to an idle engine can lead to (R150): it is latched whole, and then the command
ends at once, or its first exchange begins. -/
theorem acceptance_elim {s t : State} (P : State → Prop) (hphase : s.phase = .idle)
    (h : exec (decodeCommandRow s.cmd) s = .next t)
    (refused : ∀ k, P (completeAtAcceptance k (accept s.cmd s)))
    (sync : s.cmd.op = opSync → P (beginSend pSync (accept s.cmd s)))
    (setreg : s.cmd.op = opSetreg → s.synced = true → legalWidth s.cmd.width = true →
      P (beginSend (pSetreg s.cmd.addr s.cmd.width s.cmd.value) (accept s.cmd s)))
    (download : s.cmd.op = opDownload → s.synced = true → P (startDownload (accept s.cmd s)))
    (run : ∀ target, s.cmd.op = opRun → s.synced = true →
      P (beginSend (pRun target)
        { accept s.cmd s with res := { s.res with addr := target } })) : P t := by
  have latched : ∀ {o}, s.cmd.op = o → { s.cmd with op := o } = s.cmd := by rintro _ rfl; rfl
  unfold decodeCommandRow at h
  split at h
  · next hop =>
    rw [exec_cmdSync_idle hphase, latched hop] at h
    cases h
    exact sync hop
  split at h
  · next hop =>
    rw [exec_cmdSetreg_idle hphase] at h
    simp only [latched hop] at h
    cases h
    split
    · next hwidth => exact whenSynced_elim P (setreg hop · hwidth) (refused _)
    · exact refused _
  split at h
  · next hop =>
    rw [exec_cmdDownload_idle hphase] at h
    simp only [latched hop] at h
    cases h
    refine whenSynced_elim P (fun hsynced => ?_) (refused _)
    split
    · exact download hop hsynced
    · exact refused _
  split at h
  · next hop =>
    cases htarget : runTarget s.cmd.addr s with
    | some target =>
      rw [exec_cmdRun_idle hphase htarget] at h
      simp only [latched hop] at h
      cases h
      exact whenSynced_elim P (run target hop) (refused _)
    | none =>
      rw [exec_cmdRun_idle_none hphase htarget] at h
      simp only [latched hop] at h
      cases h
      exact refused _
  · next h0 h1 h2 h3 =>
    rw [exec_cmdReserved_idle hphase, latched (reserved_op_eq h0 h1 h2 h3).symm] at h
    cases h
    exact refused _

/-- A command that ends at acceptance changes the latched descriptor, the request, `step` and the result record, and nothing
else (R150 steps 1 to 4, R154, R221). -/
theorem ends_at_acceptance {i : Instr} {k : ResKind} {d : Descriptor} {s : State} (hphase : s.phase = .idle)
    (h : exec i s = .next (completeAtAcceptance k (accept d s))) :
    ∃ t : State, exec i s = .next t ∧
      t = { s with
            lat := d, cmdValid := false, resValid := true, step := 0, res := t.res, freeCtr := t.freeCtr } ∧
      t.res.kind = k ∧ t.res.ignored = false ∧ t.res.step = 0 ∧ t.res.nobs = 0 ∧ t.res.offset = 0 := by
  refine ⟨_, h, ?_, rfl, rfl, rfl, rfl, rfl⟩
  simp only [completeAtAcceptance, accept, ← hphase]

end Sys2Proof.Machine
end

section
/-! The command rows on an idle engine, and the rows that wait (R33, R141, R150). -/

namespace Sys2Proof.Machine

/-- The legal widths of SETREG (R83). -/
theorem legalWidth_of_mem {width : Byte} (h : width = 8 ∨ width = 16 ∨ width = 32) : legalWidth width = true := by
  simpa [legalWidth, or_assoc] using h

/-- RUN's target is its operand, or for the sentinel the `last_entry` there is (R153). -/
theorem runTarget_of_entry {s : State} {addr target : Word}
    (h : addr ≠ 0 ∧ target = addr ∨ addr = 0 ∧ s.lastEntryValid = true ∧ target = s.lastEntryAddr) :
    runTarget addr s = some target := by
  obtain ⟨haddr, rfl⟩ | ⟨rfl, hvalid, rfl⟩ := h
  · rw [runTarget, if_pos haddr]
  · rw [runTarget, if_neg (by simp), if_pos hvalid]

/-- Settles O11: acceptance and the first assignments of SEND. -/
theorem cmdSyncBeginsExchange : Obligations.CmdSyncBeginsExchange := by
  unfold Obligations.CmdSyncBeginsExchange
  intro s hphase
  rw [exec_cmdSync_idle hphase]
  rfl

/-- Settles O12: the width is legal and the engine synced, so that neither check ends the command. -/
theorem cmdSetregBeginsExchange : Obligations.CmdSetregBeginsExchange := by
  unfold Obligations.CmdSetregBeginsExchange
  intro s addr width value ign hphase hsynced hwidth
  rw [exec_cmdSetreg_idle hphase]
  simp only [legalWidth_of_mem hwidth, if_true]
  rw [whenSynced_accept hsynced]
  rfl

/-- Settles O13: DOWNLOAD's loop enters its first block, at offset 0. -/
theorem cmdDownloadBeginsFirstBlock : Obligations.CmdDownloadBeginsFirstBlock := by
  unfold Obligations.CmdDownloadBeginsFirstBlock
  intro s addr len hphase hsynced hsource hlen
  have hpos : (0 : Word).toNat < len.toNat := by
    have : len.toNat ≠ 0 := fun h => hlen (BitVec.eq_of_toNat_eq h)
    simpa using Nat.pos_of_ne_zero this
  rw [exec_cmdDownload_idle hphase, whenSynced_accept hsynced]
  simp only [accept_plAvail, hsource, if_true, startDownload, downloadLoop, accept_lat, hpos]
  simp [beginBlock, beginSend, accept, blockLen, blockAddr, blockMax, pDlblk, hdrDlrun, opDownload]

/-- Settles O15: the target resolves to the operand or to `last_entry`. -/
theorem cmdRunBeginsExchange : Obligations.CmdRunBeginsExchange := by
  unfold Obligations.CmdRunBeginsExchange
  intro s addr target hphase hsynced htarget
  rw [exec_cmdRun_idle hphase (runTarget_of_entry htarget), whenSynced_accept hsynced]
  rfl

/-- Settles O16: the row's own code is 4 to 7, whatever its two bits. -/
theorem reservedCommandIsIllegal : Obligations.ReservedCommandIsIllegal := by
  unfold Obligations.ReservedCommandIsIllegal
  intro s x hphase
  have hop : BitVec.ofNat 3 (4 + x.toNat) = (1 : BitVec 1) ++ x := by revert x; decide
  rw [hop]
  exact ends_at_acceptance hphase (exec_cmdReserved_idle hphase x)

/-- Settles O18: the sentinel has no target. -/
theorem runWithoutEntryIsNoEntryAddress : Obligations.RunWithoutEntryIsNoEntryAddress := by
  unfold Obligations.RunWithoutEntryIsNoEntryAddress
  intro s hphase hentry
  exact ends_at_acceptance hphase (exec_cmdRun_idle_none hphase (by simp [runTarget, hentry]))

/-- Settles O19: each of the three passes its own check and then finds the engine not synced. -/
theorem unsyncedCommandsAreNotSynced : Obligations.UnsyncedCommandsAreNotSynced := by
  unfold Obligations.UnsyncedCommandsAreNotSynced
  rintro s i d hphase hsynced
    (⟨addr, width, value, ign, rfl, hwidth, rfl⟩ | ⟨addr, len, rfl, rfl⟩ | ⟨addr, rfl, htarget, rfl⟩)
    <;> apply ends_at_acceptance hphase
  · rw [exec_cmdSetreg_idle hphase]
    simp only [legalWidth_of_mem hwidth, if_true]
    rw [whenSynced_accept_unsynced hsynced]
    rfl
  · rw [exec_cmdDownload_idle hphase, whenSynced_accept_unsynced hsynced]
    rfl
  · obtain ⟨target, ht⟩ : ∃ target, runTarget addr s = some target := by
      by_cases haddr : addr = 0
      · exact ⟨_, runTarget_of_entry (.inr ⟨haddr, by simpa [haddr] using htarget, rfl⟩)⟩
      · exact ⟨_, runTarget_of_entry (.inl ⟨haddr, rfl⟩)⟩
    rw [exec_cmdRun_idle hphase ht, whenSynced_accept_unsynced hsynced]
    rfl

/-- Settles O21: a command row acts in IDLE only, a response row in a read only. -/
theorem rowsWaitOutsideTheirPhase : Obligations.RowsWaitOutsideTheirPhase := by
  unfold Obligations.RowsWaitOutsideTheirPhase
  constructor
  · intro s i hphase hi
    cases i with
    | cmdSync | cmdSetreg | cmdDownload | cmdRun | cmdReserved =>
      exact congrArg Host.Outcome.next (whenIdle_busy _ s hphase)
    | _ => cases hi
  · intro i w s hw hphase
    rw [exec_of_wordOfRow hw, receive_of_not_reading _ s hphase]

end Sys2Proof.Machine
end

section
/-! What a step of ENG runs, and what reset leaves (R23, R31, R33, R132, R240). -/

namespace Sys2Proof.Machine

/-- Where there is an instruction to fetch, the engine has work. -/
theorem engineHasWork_of_fetch {s : State} {i : Instr} (h : fetch s = some i) : engineHasWork s = true := by
  rw [engineHasWork_iff]
  by_cases hphase : s.phase = .idle
  · simp only [fetch, hphase] at h
    exact .inr (by_contra fun hreq => by rw [if_neg hreq] at h; cases h)
  · exact .inl hphase

/-- The word a reading engine completes is the bytes taken before and the next ones of `rxq` (R132). -/
theorem readyBytes_eq {s : State} {r : Vector Byte 4} (hidx : s.rxIdx ≤ 3)
    (hr : r.toList = s.rxbuf.toList.take s.rxIdx ++ s.rxq.take (4 - s.rxIdx)) :
    4 ≤ s.rxIdx + s.rxq.length ∧ readyBytes s = r := by
  have hlen : 4 ≤ s.rxIdx + s.rxq.length := by
    have := congrArg List.length hr
    simp at this
    omega
  refine ⟨hlen, Vector.toList_inj.1 ?_⟩
  rw [readyBytes, takeAvailable_rxbuf, takeBytes_toList _ _ _ (by omega) hlen, hr]

/-- Settles O43: the step is ENG's turn, and the fetch reads `cmd_*`, `txbuf` or `rxq` by the phase. -/
theorem stepRunsFetchedInstruction : Obligations.StepRunsFetchedInstruction := by
  unfold Obligations.StepRunsFetchedInstruction
  refine ⟨?_, ?_, ?_, ?_, ?_⟩
  · intro s i hsched hf
    have hf' : fetch { s with progValid := false } = some i := hf
    rw [step_of_sched_nil s hsched, defaultTurn, if_pos (engineHasWork_of_fetch hf')]
    exact engineTurn_of_fetch _ i hf'
  · intro s i rest hsched hf
    rw [step_of_sched_cons s .eng rest hsched]
    exact engineTurn_of_fetch _ i hf
  · intro s hphase hreq
    simp only [fetch, hphase, if_pos hreq]
  · intro s i hphase hrow
    have hshake : inHandshake s = decide (s.lat.op = 3 ∧ s.step = 1) := by
      rw [Bool.decide_and]
      rfl
    simp only [fetch, hphase, hshake, hrow]
    rfl
  · intro s i r hphase hidx hr hrow
    obtain ⟨hlen, hword⟩ := readyBytes_eq hidx hr
    have hready : wordReady s = true := by simp [wordReady, hphase, hlen]
    simp only [fetch, hphase, if_pos hready, hword, hrow]
    rfl

/-- The step of the reset event (R240). -/
theorem step_reset {s : State} {rest : List Move} (h : s.sched = .reset :: rest) :
    step s = .next (resetBlock { s with progValid := false, sched := rest }) :=
  step_of_sched_cons s .reset rest h

/-- Settles O45: the reset event's step is `resetBlock`, which reads nothing of the block. -/
theorem resetEventResetsTheBlock : Obligations.ResetEventResetsTheBlock := by
  unfold Obligations.ResetEventResetsTheBlock
  intro s rest hsched
  exact step_reset hsched

/-- Settles O44: the fields of State.reset, and those of the reset event's next state. -/
theorem resetValuesOfTheSpec : Obligations.ResetValuesOfTheSpec := by
  unfold Obligations.ResetValuesOfTheSpec
  refine ⟨⟨rfl, rfl, rfl, rfl, rfl, rfl⟩, fun s rest hsched => ?_⟩
  exact ⟨_, step_reset hsched, rfl, rfl, rfl, rfl, rfl, rfl, rfl, rfl⟩

end Sys2Proof.Machine
end

section
/-! SUPPORT. The effect of a step, said once for every invariant: which operation of the engine it is, by the phase it is in, or
that it leaves the block's own registers as they are. -/

namespace Sys2Proof.Machine

/-- The registers of the block that no agent but ENG, TMR and the reset event writes: the state with `cmd_*`, the request, the
strobe, the streams, the channel, SRC, SEQ and the schedule blanked. -/
def State.registers (s : State) : State :=
  { s with
    cmd := zeroDescriptor, cmdValid := false, progValid := false, txq := [], rxq := [], plq := [], plAvail := false
    plErr := false, txReplies := [], txRest := .accept, chanBaud := none, seqQueue := [], seqActs := []
    seqWait := false, seqStop := none, sched := [] }

/-- What a step of the machine does, `s.atMove` the state in which the mover finds it. -/
inductive Effect (s : State) : State → Prop where
  /-- ENG accepts the descriptor presented (R150). -/
  | accepts {t : State} (hmoves : EngMoves s) (hphase : s.phase = .idle) (hreq : s.cmdValid = true)
      (hexec : exec (decodeCommandRow s.cmd) s.atMove = .next t) : Effect s t
  /-- ENG writes the rest of `txbuf` (R140). -/
  | sends (hphase : s.phase = .txHdr) : Effect s (txWrite s.atMove)
  /-- ENG completes a word and goes on with it (R132, R137). -/
  | reads (hphase : s.phase = .rxWord) : Effect s (receive (readyBytes s.atMove) s.atMove)
  /-- ENG takes what there is of an incomplete word (R132). -/
  | takes (hphase : s.phase = .rxWord) (hready : wordReady s = false) : Effect s (takeAvailable s.atMove)
  /-- ENG takes one byte of it (R132). -/
  | takesByte (hphase : s.phase = .rxWord) (hidx : s.rxIdx < 3) : Effect s (takeByte s.atMove)
  /-- TMR's tick counts (R133). -/
  | counts (hphase : s.phase = .rxWord) (hready : wordReady s = false) : Effect s (countTick s.atMove)
  /-- ENG sends payload (R171). -/
  | pays (hphase : s.phase = .txPay) : Effect s (payTurn s.atMove)
  /-- The surroundings reset the block (R240). -/
  | resets (hmove : s.sched.head? = some .reset) : Effect s (resetBlock s.atMove)
  /-- Another agent's move, or one without effect on the block's registers. -/
  | elsewhere {t : State} (ht : t.registers = s.registers) : Effect s t

/-- ENG's turn has one of ENG's effects. -/
theorem effect_of_engineTurn {s t : State} (hmoves : s.phase = .idle → EngMoves s) (h : engineTurn s.atMove = .next t) :
    Effect s t := by
  cases hphase : s.phase with
  | idle =>
    rw [engineTurn_idle (s := s.atMove) hphase] at h
    split at h
    · next hreq => exact .accepts (hmoves hphase) hphase hreq h
    · cases h; exact .elsewhere rfl
  | txHdr =>
    rw [engineTurn_txHdr (s := s.atMove) hphase] at h
    cases h
    exact .sends hphase
  | rxWord =>
    rw [engineTurn_rxWord (s := s.atMove) hphase] at h
    split at h
    · cases h; exact .reads hphase
    · next hready => cases h; exact .takes hphase (Bool.eq_false_of_not_eq_true hready)
  | txPay =>
    rw [engineTurn_txPay (s := s.atMove) hphase] at h
    cases h
    exact .pays hphase

/-- A byte event has one of ENG's effects, or none (R132, R141). -/
theorem effect_of_byteTurn {s t : State} (h : byteTurn s.atMove = .next t) : Effect s t := by
  unfold byteTurn at h
  split at h
  · next hphase =>
    have hphase : s.phase = .rxWord := hphase
    split at h
    · next hidx => cases h; exact .takesByte hphase hidx
    · exact effect_of_engineTurn (by simp [hphase]) h
  · cases h; exact .elsewhere rfl

/-- A tick completes the word that is ready, counts on one that is not, and has no effect outside a read (R133, R134). -/
theorem effect_of_tickTurn {s t : State} (h : tickTurn s.atMove = .next t) : Effect s t := by
  by_cases hphase : s.phase = .rxWord
  · unfold tickTurn at h
    split at h
    · exact effect_of_engineTurn (by simp [hphase]) h
    · next hready => cases h; exact .counts hphase (Bool.eq_false_of_not_eq_true hready)
  · have hready : wordReady s.atMove = false := by simp [wordReady, State.atMove, hphase]
    rw [tickTurn, hready, if_neg (by simp), countTick_of_not_reading s.atMove hphase] at h
    cases h
    exact .elsewhere rfl

/-- Every step has one of these effects. -/
theorem effect_of_step {s t : State} (h : step s = .next t) : Effect s t := by
  obtain ⟨hmoves, heng⟩ | ⟨-, hseq⟩ | ⟨m, hhead, heng, hseq, hmove⟩ := step_mover h
  · exact effect_of_engineTurn (fun _ => hmoves) heng
  · obtain ⟨_, _, _, _, _, _, _, _, _, _, rfl⟩ := seqTurn_frame _ t hseq
    exact .elsewhere rfl
  · cases m with
    | eng => exact absurd rfl heng
    | seq => exact absurd rfl hseq
    | engByte => exact effect_of_byteTurn hmove
    | tick => exact effect_of_tickTurn hmove
    | reset => cases hmove; exact .resets hhead
    | devSend | devTake | operands | request | program | channel | source => cases hmove; exact .elsewhere rfl

end Sys2Proof.Machine
end

section
/-! The session registers over every step (R20, R21, R33): where `lat_*`, `synced` and `last_entry` are written, said once. -/

namespace Sys2Proof.Machine

/-- The latched descriptor and the session state: what one exchange leaves to the next (R20, R21, R23). -/
structure Session where
  lat : Descriptor
  synced : Bool
  lastEntryValid : Bool
  lastEntryAddr : Word

/-- Those registers of a state. -/
def State.session (s : State) : Session where
  lat := s.lat
  synced := s.synced
  lastEntryValid := s.lastEntryValid
  lastEntryAddr := s.lastEntryAddr

/-- States with the same registers of the block are in the same session. -/
theorem session_eq_of_registers_eq {s t : State} (h : t.registers = s.registers) : t.session = s.session :=
  calc
    t.session = t.registers.session := rfl
    _ = s.registers.session := by rw [h]

/-- DOWNLOAD ended with every byte sent (R170). -/
structure DownloadEnded (t : State) : Prop where
  resValid : t.resValid = true
  kind : t.res.kind = .ok
  total : t.dlTotal.toNat ≤ t.dlOffset.toNat

/-- What a step does to the session registers. -/
inductive SessionChange (s t : State) : Prop where
  /-- They are as they were. -/
  | kept (h : t.session = s.session)
  /-- The descriptor presented is latched, and no more (R33). -/
  | latched (hmoves : EngMoves s) (hphase : s.phase = .idle) (hreq : s.cmdValid = true)
      (h : t.session = { s.session with lat := s.cmd })
  /-- SYNC succeeds (R151). -/
  | synced (hphase : s.phase = .rxWord) (hop : s.lat.op = opSync) (h : t.session = { s.session with synced := true })
      (hidle : t.phase = .idle) (hkind : t.res.kind = .ok) (hword : t.obs0 = magicSync)
  /-- DOWNLOAD succeeds after its last payload (R170). -/
  | downloaded (hphase : s.phase = .txPay)
      (h : t.session = { s.session with lastEntryValid := true, lastEntryAddr := s.lat.addr }) (hend : DownloadEnded t)
  /-- DOWNLOAD of no bytes is latched and succeeds (R170 b). -/
  | downloadedNothing (hmoves : EngMoves s) (hphase : s.phase = .idle) (hreq : s.cmdValid = true)
      (hop : s.cmd.op = opDownload) (hlen : s.cmd.len = 0)
      (h : t.session = { s.session with lat := s.cmd, lastEntryValid := true, lastEntryAddr := s.cmd.addr })
      (hend : DownloadEnded t)
  /-- The reset event (R31). -/
  | reset (hmove : s.sched.head? = some .reset) (h : t.session = State.reset.session)

theorem txWrite_session (s : State) : (txWrite s).session = s.session := by
  apply txWrite_elim s (fun t => t.session = s.session) <;> intros <;> rfl

theorem countTick_session (s : State) : (countTick s).session = s.session := by
  apply countTick_elim s (fun t => t.session = s.session) <;> intros <;> rfl

/-- The loop of DOWNLOAD writes the session only at its end (R170). -/
theorem downloadLoop_session (n : Nat) (s : State) :
    (downloadLoop n s).session = s.session ∨
    s.dlTotal.toNat ≤ s.dlOffset.toNat ∧ DownloadEnded (downloadLoop n s) ∧
      (downloadLoop n s).session = { s.session with lastEntryValid := true, lastEntryAddr := s.lat.addr } := by
  apply downloadLoop_elim n s fun t => t.session = s.session ∨
    s.dlTotal.toNat ≤ s.dlOffset.toNat ∧ DownloadEnded t ∧
      t.session = { s.session with lastEntryValid := true, lastEntryAddr := s.lat.addr }
  · intro _
    exact .inl rfl
  · intro hdone
    exact .inr ⟨hdone, ⟨rfl, rfl, hdone⟩, rfl⟩

/-- A payload turn writes the session only where it ends DOWNLOAD (R170, R171). -/
theorem payTurn_session (s : State) :
    (payTurn s).session = s.session ∨
    DownloadEnded (payTurn s) ∧
      (payTurn s).session = { s.session with lastEntryValid := true, lastEntryAddr := s.lat.addr } := by
  apply payTurn_elim s fun t => t.session = s.session ∨
    DownloadEnded t ∧ t.session = { s.session with lastEntryValid := true, lastEntryAddr := s.lat.addr }
  case block =>
    intro n a b c _
    obtain h | ⟨-, hend, h⟩ := downloadLoop_session 1 _
    · exact .inl h
    · exact .inr ⟨hend, h⟩
  case fail => intros; exact .inl rfl
  case wait => intros; exact .inl rfl

/-- A completed word writes the session only where SYNC succeeds (R151). -/
theorem afterWord_session (w : Word) (s : State) :
    (afterWord w s).session = s.session ∨
    s.lat.op = opSync ∧ (afterWord w s).session = { s.session with synced := true } ∧ (afterWord w s).phase = .idle ∧
      (afterWord w s).res.kind = .ok ∧ (afterWord w s).obs0 = magicSync := by
  apply afterWord_elim w s fun t => t.session = s.session ∨
    s.lat.op = opSync ∧ t.session = { s.session with synced := true } ∧ t.phase = .idle ∧ t.res.kind = .ok ∧
      t.obs0 = magicSync
  case syncOk => intro hop hw; exact .inr ⟨hop, rfl, rfl, rfl, hw⟩
  all_goals intros; exact .inl rfl

/-- The word that completes a read writes the session only where it answers SYNC (R151). -/
theorem receive_session (r : Vector Byte 4) (s : State) :
    (receive r s).session = s.session ∨
    s.lat.op = opSync ∧ (receive r s).session = { s.session with synced := true } ∧ (receive r s).phase = .idle ∧
      (receive r s).res.kind = .ok ∧ (receive r s).obs0 = magicSync := by
  unfold receive
  split
  · exact afterWord_session _ _
  · exact .inl rfl

/-- Acceptance latches the descriptor presented, and writes no more of the session but at the end of an empty DOWNLOAD (R33,
R170 b). -/
theorem acceptance_session {s t : State} (hphase : s.phase = .idle) (h : exec (decodeCommandRow s.cmd) s = .next t) :
    t.session = { s.session with lat := s.cmd } ∨
    s.cmd.op = opDownload ∧ s.cmd.len = 0 ∧ DownloadEnded t ∧
      t.session = { s.session with lat := s.cmd, lastEntryValid := true, lastEntryAddr := s.cmd.addr } := by
  apply acceptance_elim (fun t => t.session = { s.session with lat := s.cmd } ∨
    s.cmd.op = opDownload ∧ s.cmd.len = 0 ∧ DownloadEnded t ∧
      t.session = { s.session with lat := s.cmd, lastEntryValid := true, lastEntryAddr := s.cmd.addr }) hphase h
  case download =>
    intro hop _
    obtain hkept | ⟨hdone, hend, hses⟩ := downloadLoop_session 0 _
    · exact .inl hkept
    · have hlen : s.cmd.len.toNat ≤ (0 : Word).toNat := hdone
      exact .inr ⟨hop, BitVec.eq_of_toNat_eq (by simpa using hlen), hend, hses⟩
  all_goals intros; exact .inl rfl

/-- What any step does to the session registers. -/
theorem sessionChange_of_step {s t : State} (h : step s = .next t) : SessionChange s t := by
  cases effect_of_step h with
  | accepts hmoves hphase hreq hexec =>
    obtain hses | ⟨hop, hlen, hend, hses⟩ := acceptance_session (s := s.atMove) hphase hexec
    · exact .latched hmoves hphase hreq hses
    · exact .downloadedNothing hmoves hphase hreq hop hlen hses hend
  | sends => exact .kept (txWrite_session s.atMove)
  | reads hphase =>
    obtain hses | ⟨hop, hses, hidle, hkind, hword⟩ := receive_session (readyBytes s.atMove) s.atMove
    · exact .kept hses
    · exact .synced hphase hop hses hidle hkind hword
  | takes => exact .kept rfl
  | takesByte => exact .kept rfl
  | counts => exact .kept (countTick_session s.atMove)
  | pays hphase =>
    obtain hses | ⟨hend, hses⟩ := payTurn_session s.atMove
    · exact .kept hses
    · exact .downloaded hphase hses hend
  | resets hmove => exact .reset hmove rfl
  | elsewhere ht => exact .kept (session_eq_of_registers_eq ht)

/-- Settles O49: of the changes of the session only SYNC's success and reset touch `synced`. -/
theorem syncedSetOnlyBySync : Obligations.SyncedSetOnlyBySync := by
  unfold Obligations.SyncedSetOnlyBySync
  intro s t h hne
  cases sessionChange_of_step h with
  | synced hphase hop hses hidle hkind hword =>
    have hset : t.synced = true := congrArg Session.synced hses
    have hwas : s.synced = false := by simpa [hset] using hne
    exact .inl ⟨hwas, hphase, hop, hidle, hkind, hword⟩
  | reset hmove hses =>
    have hclear : t.synced = false := congrArg Session.synced hses
    exact .inr ⟨by simpa [hclear] using hne, hmove⟩
  | kept hses | latched _ _ _ hses | downloaded _ hses | downloadedNothing _ _ _ _ _ hses =>
    exact absurd (congrArg Session.synced hses) hne

/-- Settles O50: of the changes of the session only the two ends of DOWNLOAD and reset touch `last_entry`. -/
theorem lastEntryWrittenOnlyByDownload : Obligations.LastEntryWrittenOnlyByDownload := by
  unfold Obligations.LastEntryWrittenOnlyByDownload
  intro s t h
  cases sessionChange_of_step h with
  | kept hses | latched _ _ _ hses | synced _ _ hses =>
    exact .inl ⟨congrArg Session.lastEntryValid hses, congrArg Session.lastEntryAddr hses⟩
  | downloaded hphase hses hend =>
    have hlat : t.lat = s.lat := congrArg Session.lat hses
    have haddr : t.lastEntryAddr = s.lat.addr := congrArg Session.lastEntryAddr hses
    exact .inr (.inl ⟨congrArg Session.lastEntryValid hses, by rw [haddr, hlat], hend.resValid, hend.kind, hend.total,
      .inl hphase⟩)
  | downloadedNothing _ hphase hreq hop hlen hses hend =>
    have hlat : t.lat = s.cmd := congrArg Session.lat hses
    have haddr : t.lastEntryAddr = s.cmd.addr := congrArg Session.lastEntryAddr hses
    exact .inr (.inl ⟨congrArg Session.lastEntryValid hses, by rw [haddr, hlat], hend.resValid, hend.kind, hend.total,
      .inr ⟨hphase, hreq, hop, hlen⟩⟩)
  | reset hmove => exact .inr (.inr hmove)

/-- `lat_*` is written at acceptance and by reset (R33). -/
theorem lat_of_step {s t : State} (h : step s = .next t) :
    t.lat = s.lat ∨ (EngMoves s ∧ s.phase = .idle ∧ s.cmdValid = true ∧ t.lat = s.cmd) ∨
      s.sched.head? = some .reset := by
  cases sessionChange_of_step h with
  | kept hses | synced _ _ hses | downloaded _ hses => exact .inl (congrArg Session.lat hses)
  | latched hmoves hphase hreq hses | downloadedNothing hmoves hphase hreq _ _ hses =>
    exact .inr (.inl ⟨hmoves, hphase, hreq, congrArg Session.lat hses⟩)
  | reset hmove => exact .inr (.inr hmove)

end Sys2Proof.Machine
end

section
/-! SUPPORT. A turn in the payload, by how the attempt to write the bytes ready came out (R171, R174). -/

namespace Sys2Proof.Machine

/-- The attempt to write the rest of the block's payload, as far as SRC has it (R171). -/
abbrev payOffer (s : State) : TxOutcome := txOffer (s.plq.take (s.blkLen - s.payIdx)) s.txReplies s.txRest

/-- The state after that attempt, before what follows from how it ended. -/
abbrev payAdvance (s : State) : State :=
  { s with
    txq := s.txq ++ (payOffer s).sent, payIdx := s.payIdx + (payOffer s).sent.length, txReplies := (payOffer s).replies
    plq := s.plq.drop
      (if (payOffer s).how = .error then (payOffer s).sent.length + 1 else (payOffer s).sent.length) }

/-- All that the block lacks was there and has gone out: the block ends. -/
theorem payTurn_of_block {s : State} (hhow : (payOffer s).how = .done) (hwant : s.blkLen - s.payIdx ≤ s.plq.length) :
    payTurn s = finishBlock (payAdvance s) := by
  simp only [payTurn, payAdvance, hhow, List.length_take, Nat.min_eq_left hwant, le_refl, if_true]

/-- All that SRC had has gone out, and the block lacks more: SRC has ended, or the engine waits for it. -/
theorem payTurn_of_source {s : State} (hhow : (payOffer s).how = .done)
    (hwant : ¬s.blkLen - s.payIdx ≤ s.plq.length) :
    payTurn s = if s.plErr then complete .sourceUnavailable false 1 (payAdvance s) else payAdvance s := by
  have hready : ¬s.blkLen - s.payIdx ≤ (s.plq.take (s.blkLen - s.payIdx)).length := by
    rw [List.length_take]
    omega
  simp only [payTurn, payAdvance, hhow, if_neg hready]

/-- The channel refused a byte (R216). -/
theorem payTurn_of_error {s : State} (hhow : (payOffer s).how = .error) :
    payTurn s = complete .transportError false 1 (payAdvance s) := by
  simp only [payTurn, payAdvance, hhow]

/-- The channel did not take a byte (R252). -/
theorem payTurn_of_stall {s : State} (hhow : (payOffer s).how = .stall) : payTurn s = payAdvance s := by
  simp only [payTurn, payAdvance, hhow]

end Sys2Proof.Machine
end

section
/-! `cmd_*` and a command in progress (R33, R64, R255): what the engine does while it is busy commutes with any change of the
operand registers. -/

namespace Sys2Proof.Machine

/-- The state with other contents of the operand registers. -/
def State.withCmd (d : Descriptor) (s : State) : State := { s with cmd := d }

/-- The operation reads nothing of `cmd_*` and leaves it as it is. -/
def BlindToCmd (f : State → State) : Prop := ∀ (d : Descriptor) (s : State), f (s.withCmd d) = (f s).withCmd d

section

variable (d : Descriptor) (s : State)

@[simp] theorem withCmd_phase : (s.withCmd d).phase = s.phase := rfl
@[simp] theorem withCmd_lat : (s.withCmd d).lat = s.lat := rfl
@[simp] theorem withCmd_step : (s.withCmd d).step = s.step := rfl
@[simp] theorem withCmd_rxIdx : (s.withCmd d).rxIdx = s.rxIdx := rfl
@[simp] theorem withCmd_obs0 : (s.withCmd d).obs0 = s.obs0 := rfl
@[simp] theorem withCmd_dlTotal : (s.withCmd d).dlTotal = s.dlTotal := rfl
@[simp] theorem withCmd_dlOffset : (s.withCmd d).dlOffset = s.dlOffset := rfl
@[simp] theorem withCmd_plErr : (s.withCmd d).plErr = s.plErr := rfl
@[simp] theorem wordReady_withCmd : wordReady (s.withCmd d) = wordReady s := rfl
@[simp] theorem readyBytes_withCmd : readyBytes (s.withCmd d) = readyBytes s := rfl

end

theorem txWrite_blindToCmd : BlindToCmd txWrite := by
  intro d s
  simp only [txWrite, State.withCmd]
  split <;> rfl

theorem downloadLoop_blindToCmd (n : Nat) : BlindToCmd (downloadLoop n) := by
  intro d s
  unfold downloadLoop
  rw [withCmd_dlOffset, withCmd_dlTotal]
  split <;> rfl

theorem finishBlock_blindToCmd : BlindToCmd finishBlock := by
  intro d s
  let off := s.dlOffset + BitVec.ofNat 32 s.blkLen
  exact downloadLoop_blindToCmd 1 d
    { s with dlOffset := off, progOffset := off, progTotal := s.dlTotal, progValid := true }

theorem payTurn_blindToCmd : BlindToCmd payTurn := by
  intro d s
  cases hhow : (payOffer s).how with
  | done =>
    by_cases hwant : s.blkLen - s.payIdx ≤ s.plq.length
    · rw [payTurn_of_block hhow hwant, payTurn_of_block (s := s.withCmd d) hhow hwant]
      exact finishBlock_blindToCmd d (payAdvance s)
    · rw [payTurn_of_source hhow hwant, payTurn_of_source (s := s.withCmd d) hhow hwant, withCmd_plErr]
      split <;> rfl
  | error => rw [payTurn_of_error hhow, payTurn_of_error (s := s.withCmd d) hhow]; rfl
  | stall => rw [payTurn_of_stall hhow, payTurn_of_stall (s := s.withCmd d) hhow]; rfl

theorem syncWord_blindToCmd (w : Word) : BlindToCmd (syncWord w) := by
  intro d s
  unfold syncWord
  split <;> rfl

theorem setregWord_blindToCmd (w : Word) : BlindToCmd (setregWord w) := by
  intro d s
  unfold setregWord
  rw [withCmd_step, withCmd_obs0, withCmd_lat]
  split
  · rfl
  split
  · rfl
  split <;> rfl

theorem downloadWord_blindToCmd (w : Word) : BlindToCmd (downloadWord w) := by
  intro d s
  unfold downloadWord
  split <;> rfl

theorem runWord_blindToCmd (w : Word) : BlindToCmd (runWord w) := by
  intro d s
  unfold runWord
  rw [withCmd_step]
  split
  · split <;> rfl
  · split <;> rfl

theorem afterWord_blindToCmd (w : Word) : BlindToCmd (afterWord w) := by
  intro d s
  unfold afterWord
  rw [withCmd_lat]
  split
  · exact syncWord_blindToCmd w d s
  split
  · exact setregWord_blindToCmd w d s
  split
  · exact downloadWord_blindToCmd w d s
  split
  · exact runWord_blindToCmd w d s
  · rfl

theorem receive_blindToCmd (r : Vector Byte 4) : BlindToCmd (receive r) := by
  intro d s
  unfold receive
  rw [withCmd_phase]
  split
  · exact afterWord_blindToCmd _ d { s with rxq := s.rxq.drop (4 - s.rxIdx), rxIdx := 4, rxbuf := r }
  · rfl

theorem short_blindToCmd : BlindToCmd short := by
  intro d s
  unfold short
  rw [withCmd_lat]
  split <;> rfl

theorem countTick_blindToCmd : BlindToCmd countTick := by
  intro d s
  have hguard : (takeAvailable (s.withCmd d)).guardCnt = (takeAvailable s).guardCnt := rfl
  unfold countTick
  simp only [withCmd_phase, hguard]
  split
  · split
    · exact short_blindToCmd d { takeAvailable s with guardCnt := 0 }
    · rfl
  · rfl

/-- The turn of a busy engine does the same whatever stands in `cmd_*`. -/
theorem engineTurn_withCmd {s t : State} (hphase : s.phase ≠ .idle) (d : Descriptor) (h : engineTurn s = .next t) :
    engineTurn (s.withCmd d) = .next (t.withCmd d) := by
  cases hp : s.phase with
  | idle => exact absurd hp hphase
  | txHdr =>
    rw [engineTurn_txHdr hp] at h
    cases h
    rw [engineTurn_txHdr (s := s.withCmd d) hp, txWrite_blindToCmd]
  | rxWord =>
    rw [engineTurn_rxWord hp] at h
    cases h
    rw [engineTurn_rxWord (s := s.withCmd d) hp, wordReady_withCmd, readyBytes_withCmd, receive_blindToCmd]
    split <;> rfl
  | txPay =>
    rw [engineTurn_txPay hp] at h
    cases h
    rw [engineTurn_txPay (s := s.withCmd d) hp, payTurn_blindToCmd]

/-- So does its byte event. -/
theorem byteTurn_withCmd {s t : State} (hphase : s.phase ≠ .idle) (d : Descriptor) (h : byteTurn s = .next t) :
    byteTurn (s.withCmd d) = .next (t.withCmd d) := by
  unfold byteTurn at h ⊢
  rw [withCmd_phase, withCmd_rxIdx]
  by_cases hread : s.phase = .rxWord
  · rw [if_pos hread] at h ⊢
    by_cases hidx : s.rxIdx < 3
    · rw [if_pos hidx] at h ⊢
      cases h; rfl
    · rw [if_neg hidx] at h ⊢
      exact engineTurn_withCmd hphase d h
  · rw [if_neg hread] at h ⊢
    cases h; rfl

/-- So does a tick. -/
theorem tickTurn_withCmd {s t : State} (hphase : s.phase ≠ .idle) (d : Descriptor) (h : tickTurn s = .next t) :
    tickTurn (s.withCmd d) = .next (t.withCmd d) := by
  unfold tickTurn at h ⊢
  rw [wordReady_withCmd]
  by_cases hready : wordReady s = true
  · rw [if_pos hready] at h ⊢
    exact engineTurn_withCmd hphase d h
  · rw [if_neg hready] at h ⊢
    cases h; rw [countTick_blindToCmd]

/-- A step whose move is ENG's is ENG's turn (log 2). -/
theorem step_of_engMoves {s : State} (h : EngMoves s) : step s = engineTurn s.atMove := by
  cases hs : s.sched with
  | nil =>
    have hwork : s.phase ≠ .idle ∨ s.cmdValid = true := by simpa [EngMoves, hs] using h
    rw [step_of_sched_nil s hs, ← atMove_of_sched_nil hs, defaultTurn, if_pos ((engineHasWork_iff s.atMove).2 hwork)]
  | cons m rest =>
    obtain rfl : m = .eng := by simpa [EngMoves, hs] using h
    rw [step_of_sched_cons s _ rest hs, ← atMove_of_sched_cons hs]
    rfl

/-- A step whose move the schedule names is that move. -/
theorem step_of_head {s : State} {m : Move} (h : s.sched.head? = some m) : step s = moveTurn m s.atMove := by
  obtain ⟨rest, hs⟩ := List.head?_eq_some_iff.1 h
  rw [step_of_sched_cons s m rest hs, ← atMove_of_sched_cons hs]

/-- Settles O22: the latched registers are written by acceptance and reset alone, and a busy engine is blind to `cmd_*`. -/
theorem operandsAreSampledAtAcceptance : Obligations.OperandsAreSampledAtAcceptance := by
  unfold Obligations.OperandsAreSampledAtAcceptance
  refine ⟨fun s t h => lat_of_step h, fun s t d hphase hmove h => ?_⟩
  obtain heng | hbyte | htick := hmove
  · rw [step_of_engMoves heng] at h
    rw [step_of_engMoves (s := { s with cmd := d }) heng]
    exact ⟨congrArg Outside.cmd (engineTurn_outside _ t h), engineTurn_withCmd (s := s.atMove) hphase d h⟩
  · rw [step_of_head hbyte] at h
    rw [step_of_head (s := { s with cmd := d }) hbyte]
    exact ⟨congrArg Outside.cmd (byteTurn_outside _ t h), byteTurn_withCmd (s := s.atMove) hphase d h⟩
  · rw [step_of_head htick] at h
    rw [step_of_head (s := { s with cmd := d }) htick]
    exact ⟨congrArg Outside.cmd (tickTurn_outside _ t h), tickTurn_withCmd (s := s.atMove) hphase d h⟩

end Sys2Proof.Machine
end

section
/-! SUPPORT. The invariant, in the parts its proof keeps apart: the bounds, which hold in every phase, and what a command in
progress keeps over its exchanges. -/

namespace Sys2Proof.Machine

/-- The bounds of R6, R23, R25 and R26. -/
structure InBounds (s : State) : Prop where
  ticks : 0 < s.cfg.timeoutTicks
  txIdx : s.txIdx ≤ 16
  rxIdx : s.rxIdx ≤ 4
  guardCnt : s.guardCnt ≤ s.cfg.timeoutTicks
  blkLen : s.blkLen ≤ 4096
  payIdx : s.payIdx ≤ 4096

/-- What a command in progress keeps, whatever the phase (R23, R27, R83, R91, R171, R225). -/
structure InProgress (s : State) : Prop where
  resValid : s.resValid = false
  op : s.lat.op.toNat < 4
  synced : s.lat.op ≠ opSync → s.synced = true
  step : s.step = 1 → s.lat.op = opSetreg ∨ s.lat.op = opRun
  width : s.lat.op = opSetreg → legalWidth s.lat.width = true
  download : s.lat.op = opDownload →
    s.dlBase = s.lat.addr ∧ s.dlTotal = s.lat.len ∧ s.dlOffset.toNat < s.dlTotal.toNat ∧
    s.blkLen = blockLen s.dlTotal s.dlOffset ∧ s.res.addr = blockAddr s.dlBase s.dlOffset

theorem busy_iff (s : State) : s.busy = true ↔ s.phase ≠ .idle := by simp [State.busy]

theorem Inv.inBounds {s : State} (h : Inv s) : InBounds s where
  ticks := h.ticks_pos
  txIdx := h.txIdx_le
  rxIdx := h.rxIdx_le
  guardCnt := h.guardCnt_le
  blkLen := h.blkLen_le
  payIdx := h.payIdx_le

theorem Inv.inProgress {s : State} (h : Inv s) (hphase : s.phase ≠ .idle) : InProgress s :=
  have hbusy := (busy_iff s).2 hphase
  { resValid := h.busy_resValid hbusy
    op := h.busy_op hbusy
    synced := h.busy_synced hbusy
    step := h.busy_step hbusy
    width := h.busy_width hbusy
    download := h.busy_download hbusy }

/-- The invariant from its parts: the bounds, the command in progress if there is one, and what each phase asks. -/
theorem inv_of_parts {s : State} (hb : InBounds s) (hp : s.phase ≠ .idle → InProgress s)
    (txHdr : s.phase = .txHdr →
      s.txIdx < 16 ∧ s.txbuf = encodePacket s.cfg (currentPacket s) ∧ (s.lat.op = opSetreg → s.step = 0))
    (rxWord : s.phase = .rxWord → s.rxIdx < 4 ∧ 0 < s.guardCnt)
    (txPay : s.phase = .txPay → s.lat.op = opDownload ∧ s.payIdx < s.blkLen) : Inv s where
  ticks_pos := hb.ticks
  txIdx_le := hb.txIdx
  rxIdx_le := hb.rxIdx
  guardCnt_le := hb.guardCnt
  blkLen_le := hb.blkLen
  payIdx_le := hb.payIdx
  busy_resValid hbusy := (hp ((busy_iff s).1 hbusy)).resValid
  busy_op hbusy := (hp ((busy_iff s).1 hbusy)).op
  busy_synced hbusy := (hp ((busy_iff s).1 hbusy)).synced
  busy_step hbusy := (hp ((busy_iff s).1 hbusy)).step
  busy_width hbusy := (hp ((busy_iff s).1 hbusy)).width
  busy_download hbusy := (hp ((busy_iff s).1 hbusy)).download
  txHdr := txHdr
  rxWord := rxWord
  txPay := txPay

/-- An idle engine has only the bounds to keep. -/
theorem inv_of_idle {s : State} (hb : InBounds s) (hphase : s.phase = .idle) : Inv s :=
  inv_of_parts hb (absurd hphase) (by simp [hphase]) (by simp [hphase]) (by simp [hphase])

theorem inv_of_txHdr {s : State} (hb : InBounds s) (hp : InProgress s) (hphase : s.phase = .txHdr) (hidx : s.txIdx < 16)
    (hbuf : s.txbuf = encodePacket s.cfg (currentPacket s)) (hstep : s.lat.op = opSetreg → s.step = 0) : Inv s :=
  inv_of_parts hb (fun _ => hp) (fun _ => ⟨hidx, hbuf, hstep⟩) (by simp [hphase]) (by simp [hphase])

theorem inv_of_rxWord {s : State} (hb : InBounds s) (hp : InProgress s) (hphase : s.phase = .rxWord) (hidx : s.rxIdx < 4)
    (hguard : 0 < s.guardCnt) : Inv s :=
  inv_of_parts hb (fun _ => hp) (by simp [hphase]) (fun _ => ⟨hidx, hguard⟩) (by simp [hphase])

theorem inv_of_txPay {s : State} (hb : InBounds s) (hp : InProgress s) (hphase : s.phase = .txPay)
    (hop : s.lat.op = opDownload) (hidx : s.payIdx < s.blkLen) : Inv s :=
  inv_of_parts hb (fun _ => hp) (by simp [hphase]) (by simp [hphase]) (fun _ => ⟨hop, hidx⟩)

/-- The invariant speaks of the block's own registers only. -/
theorem inv_registers {s : State} : Inv s.registers ↔ Inv s :=
  ⟨fun h => { h with }, fun h => { h with }⟩

theorem inv_of_registers_eq {s t : State} (h : t.registers = s.registers) (hs : Inv s) : Inv t :=
  inv_registers.1 (h ▸ inv_registers.2 hs)

/-! ### The operations that end or begin an exchange -/

theorem inv_complete {s : State} (hb : InBounds s) (k : ResKind) (g : Bool) (n : Nat) : Inv (complete k g n s) :=
  inv_of_idle { hb with } rfl

theorem inv_completeAtAcceptance {s : State} (hb : InBounds s) (k : ResKind) : Inv (completeAtAcceptance k s) :=
  inv_of_idle { hb with } rfl

/-- A read armed in a command in progress (R131). -/
theorem inv_armRead {s : State} (hb : InBounds s) (hp : InProgress s) : Inv (armRead s) :=
  inv_of_rxWord { hb with rxIdx := Nat.zero_le 4, guardCnt := le_refl _ } { hp with } rfl (by decide : 0 < 4) hb.ticks

/-- The packet of the exchange in progress begun (R140). -/
theorem inv_beginSend {s : State} (hb : InBounds s) (hp : InProgress s) {p : Packet} (hpacket : p = currentPacket s)
    (hstep : s.lat.op = opSetreg → s.step = 0) : Inv (beginSend p s) :=
  inv_of_txHdr { hb with txIdx := Nat.zero_le 16 } { hp with } rfl (by decide : 0 < 16) (by rw [hpacket]; rfl) hstep

/-! ### The packet of the exchange in progress (R86) -/

theorem currentPacket_sync {s : State} (h : s.lat.op = opSync) : currentPacket s = pSync := by
  simp [currentPacket, h, opSync, opSetreg, opDownload, opRun]

theorem currentPacket_setreg {s : State} (h : s.lat.op = opSetreg) :
    currentPacket s = pSetreg s.lat.addr s.lat.width s.lat.value := by
  simp [currentPacket, h]

theorem currentPacket_download {s : State} (h : s.lat.op = opDownload) :
    currentPacket s = pDlblk s.res.addr (BitVec.ofNat 32 s.blkLen) := by
  simp [currentPacket, h, opSetreg, opDownload]

theorem currentPacket_run {s : State} (h : s.lat.op = opRun) (hstep : s.step = 0) : currentPacket s = pRun s.res.addr := by
  simp [currentPacket, h, hstep, opSetreg, opDownload, opRun]

theorem currentPacket_handshake {s : State} (h : s.lat.op = opRun) (hstep : s.step = 1) : currentPacket s = pSync := by
  simp [currentPacket, h, hstep, opSetreg, opDownload, opRun]

end Sys2Proof.Machine
end

section
/-! The invariant over every step (R23, R25, R26, R27, R86, R131, R171, R225): each effect of a step keeps it. -/

namespace Sys2Proof.Machine

/-! ### Acceptance and the blocks of a DOWNLOAD (R150, R170, R171) -/

/-- A command just accepted that is no DOWNLOAD is in progress once its checks have passed. -/
theorem inProgress_accept {s : State} {d : Descriptor} (hop : d.op.toNat < 4) (hdl : d.op ≠ opDownload)
    (hsynced : d.op ≠ opSync → s.synced = true) (hwidth : d.op = opSetreg → legalWidth d.width = true) :
    InProgress (accept d s) where
  resValid := rfl
  op := hop
  synced := hsynced
  step h := absurd h (by decide : (0 : BitVec 1) ≠ 1)
  width := hwidth
  download h := absurd h hdl

/-- A DOWNLOAD past its checks, between two blocks. -/
structure BetweenBlocks (s : State) : Prop where
  resValid : s.resValid = false
  op : s.lat.op = opDownload
  synced : s.synced = true
  step : s.step ≠ 1
  base : s.dlBase = s.lat.addr
  total : s.dlTotal = s.lat.len

theorem blockLen_le (total offset : Word) : blockLen total offset ≤ 4096 := Nat.min_le_left _ _

/-- There is a byte in a block of what is left. -/
theorem blockLen_pos {total offset : Word} (h : offset.toNat < total.toNat) : 0 < blockLen total offset := by
  unfold blockLen blockMax
  omega

/-- The next block of a DOWNLOAD, or its end (R170, R171). -/
theorem inv_downloadLoop {s : State} (hb : InBounds s) (hd : BetweenBlocks s) (n : Nat) : Inv (downloadLoop n s) := by
  apply downloadLoop_elim n s Inv
  case finish =>
    intro _
    exact inv_complete (s := { s with lastEntryValid := true, lastEntryAddr := s.lat.addr }) { hb with } _ _ _
  case block =>
    intro hmore
    let u : State :=
      { s with
        blkLen := blockLen s.dlTotal s.dlOffset, res := { s.res with addr := blockAddr s.dlBase s.dlOffset } }
    have hp : InProgress u :=
      { resValid := hd.resValid
        op := by rw [show u.lat.op = opDownload from hd.op]; decide
        synced := fun _ => hd.synced
        step := fun h => absurd h hd.step
        width := fun h => absurd (hd.op.symm.trans h) (by decide)
        download := fun _ => ⟨hd.base, hd.total, hmore, rfl, rfl⟩ }
    exact inv_beginSend (s := u) { hb with blkLen := blockLen_le _ _ } hp (currentPacket_download (s := u) hd.op).symm
      (fun h => absurd (hd.op.symm.trans h) (by decide))

/-- Acceptance of the descriptor presented (R150). -/
theorem inv_acceptance {s t : State} (hb : InBounds s) (hphase : s.phase = .idle)
    (h : exec (decodeCommandRow s.cmd) s = .next t) : Inv t := by
  have hb' : InBounds (accept s.cmd s) := { hb with }
  apply acceptance_elim Inv hphase h
  case refused => intro k; exact inv_completeAtAcceptance hb' k
  case sync =>
    intro hop
    have hp : InProgress (accept s.cmd s) :=
      inProgress_accept (by rw [hop]; decide) (by rw [hop]; decide) (absurd hop) (by rw [hop]; intro h; cases h)
    exact inv_beginSend hb' hp (currentPacket_sync (s := accept s.cmd s) hop).symm (fun _ => rfl)
  case setreg =>
    intro hop hsynced hwidth
    have hp : InProgress (accept s.cmd s) :=
      inProgress_accept (by rw [hop]; decide) (by rw [hop]; decide) (fun _ => hsynced) (fun _ => hwidth)
    exact inv_beginSend hb' hp (currentPacket_setreg (s := accept s.cmd s) hop).symm (fun _ => rfl)
  case download =>
    intro hop hsynced
    let u : State :=
      { accept s.cmd s with
        dlBase := s.cmd.addr, dlTotal := s.cmd.len, dlOffset := 0, res := { s.res with addr := s.cmd.addr } }
    have hd : BetweenBlocks u :=
      { resValid := rfl, op := hop, synced := hsynced, step := (by decide : (0 : BitVec 1) ≠ 1), base := rfl, total := rfl }
    exact inv_downloadLoop (s := u) { hb with } hd 0
  case run =>
    intro target hop hsynced
    have hp : InProgress (accept s.cmd s) :=
      inProgress_accept (by rw [hop]; decide) (by rw [hop]; decide) (fun _ => hsynced) (by rw [hop]; intro h; cases h)
    let u : State := { accept s.cmd s with res := { s.res with addr := target } }
    have hp' : InProgress u := { hp with download := fun h => absurd (hop.symm.trans h) (by decide) }
    exact inv_beginSend (s := u) { hb with } hp' (currentPacket_run (s := u) hop rfl).symm (fun _ => rfl)

/-! ### Bytes out (R140, R171) -/

/-- Where the attempt ended before the last byte, not all were taken. -/
theorem txOffer_sent_length_lt {bs : List Byte} {replies : List TxReply} {rest : TxReply}
    (h : (txOffer bs replies rest).how ≠ .done) : (txOffer bs replies rest).sent.length < bs.length := by
  obtain ⟨left, hbs, -, hleft⟩ := txOffer_sent_prefix bs replies rest
  have hlen := congrArg List.length hbs
  have hpos := List.length_pos_iff.2 (hleft h)
  rw [List.length_append] at hlen
  omega

/-- `tx_idx` stays within the packet. -/
theorem txAdvance_txIdx_le {s : State} (h : s.txIdx ≤ 16) : (txAdvance s).txIdx ≤ 16 := by
  have hsent := txOffer_sent_length_le (s.txbuf.toList.drop s.txIdx) s.txReplies s.txRest
  rw [List.length_drop, Vector.length_toList] at hsent
  change s.txIdx + _ ≤ 16
  omega

/-- A turn of a sending engine (R140): the read armed, TransportError, or less than the whole packet out. -/
theorem inv_txWrite {s : State} (hs : Inv s) (hphase : s.phase = .txHdr) : Inv (txWrite s) := by
  obtain ⟨hidx, hbuf, hstep⟩ := hs.txHdr hphase
  have hb : InBounds (txAdvance s) := { hs.inBounds with txIdx := txAdvance_txIdx_le hs.txIdx_le }
  have hp : InProgress (txAdvance s) := { hs.inProgress (by simp [hphase]) with }
  cases hhow : (txOffer (s.txbuf.toList.drop s.txIdx) s.txReplies s.txRest).how with
  | done =>
    have he : txWrite s = armRead (txAdvance s) := by simp only [txWrite, hhow]
    exact he ▸ inv_armRead hb hp
  | error =>
    have he : txWrite s = complete .transportError false 0 (txAdvance s) := by simp only [txWrite, hhow]
    exact he ▸ inv_complete hb _ _ _
  | stall =>
    have he : txWrite s = txAdvance s := by simp only [txWrite, hhow]
    have hsent := txOffer_sent_length_lt (bs := s.txbuf.toList.drop s.txIdx) (by rw [hhow]; decide)
    rw [List.length_drop, Vector.length_toList] at hsent
    have hlt : (txAdvance s).txIdx < 16 := by
      change s.txIdx + _ < 16
      omega
    exact he ▸ inv_of_txHdr hb hp hphase hlt hbuf hstep

/-- What has gone out of a block and what the channel now takes is no more than the block, nor than SRC has. -/
theorem payAdvance_payIdx_le {s : State} (h : s.payIdx < s.blkLen) :
    (payAdvance s).payIdx ≤ s.blkLen ∧ (payAdvance s).payIdx ≤ s.payIdx + s.plq.length := by
  have hsent : (payOffer s).sent.length ≤ (s.plq.take (s.blkLen - s.payIdx)).length := txOffer_sent_length_le _ _ _
  rw [List.length_take] at hsent
  change s.payIdx + (payOffer s).sent.length ≤ s.blkLen ∧ s.payIdx + (payOffer s).sent.length ≤ s.payIdx + s.plq.length
  omega

/-- A channel that does not take a byte leaves some of the block to send. -/
theorem payAdvance_payIdx_lt {s : State} (h : s.payIdx < s.blkLen) (hhow : (payOffer s).how ≠ .done) :
    (payAdvance s).payIdx < s.blkLen := by
  have hsent : (payOffer s).sent.length < (s.plq.take (s.blkLen - s.payIdx)).length := txOffer_sent_length_lt hhow
  rw [List.length_take] at hsent
  change s.payIdx + (payOffer s).sent.length < s.blkLen
  omega

/-- The end of a block (R171). -/
theorem inv_finishBlock {s : State} (hb : InBounds s) (hd : BetweenBlocks s) : Inv (finishBlock s) := by
  let off := s.dlOffset + BitVec.ofNat 32 s.blkLen
  exact inv_downloadLoop (s := { s with dlOffset := off, progOffset := off, progTotal := s.dlTotal, progValid := true })
    { hb with } { hd with } 1

/-- A DOWNLOAD in progress, its block done with, is between two blocks. -/
theorem betweenBlocks_of_inProgress {s : State} (hp : InProgress s) (hop : s.lat.op = opDownload) : BetweenBlocks s := by
  obtain ⟨hbase, htotal, -⟩ := hp.download hop
  refine ⟨hp.resValid, hop, hp.synced (by rw [hop]; decide), fun hstep => ?_, hbase, htotal⟩
  have hop' := hp.step hstep
  rw [hop] at hop'
  exact absurd hop' (by decide)

/-- A turn in the payload (R171, R174): the next block or the end, a failure, or less than the whole block out. -/
theorem inv_payTurn {s : State} (hs : Inv s) (hphase : s.phase = .txPay) : Inv (payTurn s) := by
  obtain ⟨hop, hidx⟩ := hs.txPay hphase
  have hp : InProgress (payAdvance s) := { hs.inProgress (by simp [hphase]) with }
  obtain ⟨hle, hsource⟩ := payAdvance_payIdx_le hidx
  have hb : InBounds (payAdvance s) := { hs.inBounds with payIdx := hle.trans hs.blkLen_le }
  have wait (hlt : (payAdvance s).payIdx < s.blkLen) : Inv (payAdvance s) := inv_of_txPay hb hp hphase hop hlt
  cases hhow : (payOffer s).how with
  | done =>
    by_cases hwant : s.blkLen - s.payIdx ≤ s.plq.length
    · exact payTurn_of_block hhow hwant ▸ inv_finishBlock hb (betweenBlocks_of_inProgress hp hop)
    · rw [payTurn_of_source hhow hwant]
      split
      · exact inv_complete hb _ _ _
      · exact wait (by omega)
  | error => exact payTurn_of_error hhow ▸ inv_complete hb _ _ _
  | stall => exact payTurn_of_stall hhow ▸ wait (payAdvance_payIdx_lt hidx (by rw [hhow]; decide))

/-! ### Bytes in (R132, R133, R137) -/

/-- What a completed word leads to (R151 to R153, R171). -/
theorem inv_afterWord {s : State} (hb : InBounds s) (hp : InProgress s) (w : Word) : Inv (afterWord w s) := by
  apply afterWord_elim w s Inv
  case syncBad => intro _ _; exact inv_complete (s := { s with obs0 := w }) { hb with } _ _ _
  case syncOk => intro _ _; exact inv_complete (s := { s with obs0 := w, synced := true }) { hb with } _ _ _
  case setregFirst =>
    intro hop _
    have hdl : s.lat.op ≠ opDownload := by rw [hop]; decide
    exact inv_armRead (s := { s with obs0 := w, step := 1 }) { hb with }
      { hp with step := fun _ => .inl hop, download := fun h => absurd h hdl }
  case setregEnd => intro k g _ _; exact inv_complete (s := { s with obs1 := w }) { hb with } _ _ _
  case payload =>
    intro hop _
    obtain ⟨-, -, hmore, hlen, -⟩ := hp.download hop
    have hpos : 0 < s.blkLen := hlen ▸ blockLen_pos hmore
    exact inv_of_txPay { hb with payIdx := Nat.zero_le 4096 } { hp with } rfl hop hpos
  case other => intro k _ _; exact inv_complete (s := { s with obs0 := w }) { hb with } _ _ _
  case handshake =>
    intro hop _ _
    have hdl : s.lat.op ≠ opDownload := by rw [hop]; decide
    let u : State := { s with obs0 := w, step := 1 }
    have hp' : InProgress u := { hp with step := fun _ => .inr hop, download := fun h => absurd h hdl }
    exact inv_beginSend (s := u) { hb with } hp' (currentPacket_handshake (s := u) hop rfl).symm
      (fun h => absurd (hop.symm.trans h) (by decide))
  case reserved => intro _; exact inv_completeAtAcceptance hb _

/-- The word that completes a read (R132). -/
theorem inv_receive {s : State} (hs : Inv s) (hphase : s.phase = .rxWord) (r : Vector Byte 4) : Inv (receive r s) := by
  have hp := hs.inProgress (by simp [hphase])
  rw [receive, if_pos hphase]
  exact inv_afterWord (s := { s with rxq := s.rxq.drop (4 - s.rxIdx), rxIdx := 4, rxbuf := r })
    { hs.inBounds with rxIdx := le_refl 4 } { hp with } _

/-- A word that is not ready stays incomplete when what there is of it is taken (R132). -/
theorem takeAvailable_rxIdx_lt {s : State} (hphase : s.phase = .rxWord) (hready : wordReady s = false) :
    (takeAvailable s).rxIdx < 4 := by
  have hlen : s.rxIdx + s.rxq.length < 4 := by simpa [wordReady, hphase] using hready
  rw [takeAvailable_rxIdx, (takeBytes_partial _ _ _ hlen).2]
  exact hlen

/-- The bytes of an incomplete word taken, with the guard still to run (R132, R133). -/
theorem inv_takeAvailable {s : State} (hs : Inv s) (hphase : s.phase = .rxWord) (hready : wordReady s = false) {g : Nat}
    (hpos : 0 < g) (hle : g ≤ s.cfg.timeoutTicks) : Inv { takeAvailable s with guardCnt := g } := by
  have hidx := takeAvailable_rxIdx_lt hphase hready
  have hp := hs.inProgress (by simp [hphase])
  exact inv_of_rxWord { hs.inBounds with rxIdx := hidx.le, guardCnt := hle } { hp with } hphase hidx hpos

/-- A tick that counts, or ends the read (R133). -/
theorem inv_countTick {s : State} (hs : Inv s) (hphase : s.phase = .rxWord) (hready : wordReady s = false) :
    Inv (countTick s) := by
  rw [countTick, if_pos hphase]
  change Inv (if s.guardCnt - 1 = 0 then short { takeAvailable s with guardCnt := 0 }
    else { takeAvailable s with guardCnt := s.guardCnt - 1 })
  split
  · have hb : InBounds { takeAvailable s with guardCnt := 0 } :=
      { hs.inBounds with rxIdx := (takeAvailable_rxIdx_lt hphase hready).le, guardCnt := Nat.zero_le _ }
    obtain ⟨he, -⟩ | he := short_cases { takeAvailable s with guardCnt := 0 }
    · exact he ▸ inv_complete hb _ _ _
    · exact he ▸ inv_complete hb _ _ _
  · next hg => exact inv_takeAvailable hs hphase hready (Nat.pos_of_ne_zero hg) ((Nat.sub_le _ 1).trans hs.guardCnt_le)

/-- One byte of a word that lacks more than one (R132). -/
theorem inv_takeByte {s : State} (hs : Inv s) (hphase : s.phase = .rxWord) (hidx : s.rxIdx < 3) : Inv (takeByte s) := by
  cases hq : s.rxq with
  | nil => rwa [takeByte_nil s hq]
  | cons c q =>
    rw [takeByte_cons s c q (by omega) hq]
    have hlt : s.rxIdx + 1 < 4 := by omega
    have hp := hs.inProgress (by simp [hphase])
    exact inv_of_rxWord { hs.inBounds with rxIdx := hlt.le } { hp with } hphase hlt (hs.rxWord hphase).2

/-! ### Every step -/

/-- The reset event (R240). -/
theorem inv_resetBlock {s : State} (ht : 0 < s.cfg.timeoutTicks) : Inv (resetBlock s) :=
  inv_of_idle
    { ticks := ht, txIdx := Nat.zero_le _, rxIdx := Nat.zero_le _, guardCnt := Nat.zero_le _, blkLen := Nat.zero_le _
      payIdx := Nat.zero_le _ } rfl

/-- Settles O46: reset is the reset event of itself, and the number of ticks is one more than a natural. -/
theorem resetMeetsInvariant : Obligations.ResetMeetsInvariant := by
  unfold Obligations.ResetMeetsInvariant
  exact inv_resetBlock (s := State.reset) (Nat.succ_pos _)

/-- Settles O47: each effect a step can have keeps the invariant. -/
theorem stepKeepsInvariant : Obligations.StepKeepsInvariant := by
  unfold Obligations.StepKeepsInvariant
  intro s t hs h
  have hm : Inv s.atMove := inv_of_registers_eq (s := s) rfl hs
  cases effect_of_step h with
  | accepts _ hphase _ hexec => exact inv_acceptance (s := s.atMove) hm.inBounds hphase hexec
  | sends hphase => exact inv_txWrite hm hphase
  | reads hphase => exact inv_receive hm hphase _
  | takes hphase hready => exact inv_takeAvailable hm hphase hready (hs.rxWord hphase).2 hs.guardCnt_le
  | takesByte hphase hidx => exact inv_takeByte hm hphase hidx
  | counts hphase hready => exact inv_countTick hm hphase hready
  | pays hphase => exact inv_payTurn hm hphase
  | resets => exact inv_resetBlock hm.ticks_pos
  | elsewhere ht => exact inv_of_registers_eq ht hs

/-! ### The packet a sending engine holds (R82, R86) -/

/-- The block of a DOWNLOAD in progress has a length the table admits (R86). -/
theorem wellFormed_downloadDlblk {s : State} (hp : InProgress s) (hop : s.lat.op = opDownload) :
    (Instr.downloadDlblk s.res.addr (BitVec.ofNat 32 s.blkLen)).wellFormed = true := by
  obtain ⟨-, -, hmore, hlen, -⟩ := hp.download hop
  have hpos : 0 < s.blkLen := hlen ▸ blockLen_pos hmore
  have hle : s.blkLen ≤ 4096 := hlen ▸ blockLen_le _ _
  have hnat : (BitVec.ofNat 32 s.blkLen).toNat = s.blkLen := by
    rw [BitVec.toNat_ofNat, Nat.mod_eq_of_lt (by omega)]
  simp only [Instr.wellFormed, hnat, blockMax, Bool.and_eq_true, decide_eq_true_eq]
  omega

/-- The packet of a command in progress is that of a well-formed row, the handshake's own row in RUN's second exchange. -/
theorem exists_row_of_currentPacket {s : State} (hp : InProgress s) :
    ∃ i : Instr, i.wellFormed = true ∧ packetOf i = some (currentPacket s) ∧
      (i = .sync → inHandshake s = false) ∧ (i = .runHshake → inHandshake s = true) := by
  have hcodes : s.lat.op = opSync ∨ s.lat.op = opSetreg ∨ s.lat.op = opDownload ∨ s.lat.op = opRun := by
    have hop := hp.op
    revert hop
    generalize s.lat.op = o
    revert o
    decide
  obtain hop | hop | hop | hop := hcodes
  · exact ⟨.sync, rfl, by rw [currentPacket_sync hop]; rfl, fun _ => by simp [inHandshake, hop, opSync, opRun], nofun⟩
  · exact ⟨.setreg s.lat.addr s.lat.width s.lat.value, hp.width hop, by rw [currentPacket_setreg hop]; rfl, nofun, nofun⟩
  · exact ⟨.downloadDlblk s.res.addr (BitVec.ofNat 32 s.blkLen), wellFormed_downloadDlblk hp hop,
      by rw [currentPacket_download hop]; rfl, nofun, nofun⟩
  · have hsteps : s.step = 0 ∨ s.step = 1 := by
      generalize s.step = n
      revert n
      decide
    obtain hstep | hstep := hsteps
    · exact ⟨.run s.res.addr, rfl, by rw [currentPacket_run hop hstep]; rfl, nofun, nofun⟩
    · exact ⟨.runHshake, rfl, by rw [currentPacket_handshake hop hstep]; rfl, nofun,
        fun _ => by simp [inHandshake, hop, hstep]⟩

/-- Settles O48: `txbuf` encodes the packet of the exchange in progress, which decodes to its row. -/
theorem sendingEngineHoldsTablePacket : Obligations.SendingEngineHoldsTablePacket := by
  unfold Obligations.SendingEngineHoldsTablePacket
  intro s hs hphase
  obtain ⟨-, hbuf, -⟩ := hs.txHdr hphase
  obtain ⟨i, hwf, hpacket, hsync, hhshake⟩ := exists_row_of_currentPacket (hs.inProgress (by simp [hphase]))
  have hrow : decodePacketRow s.cfg (inHandshake s) s.txbuf = .ok i :=
    hbuf ▸ decodePacketRow_encodePacket s.cfg (inHandshake s) hpacket hwf hsync hhshake
  refine ⟨i, currentPacket s, ?_, hwf, hpacket, hbuf⟩
  simp only [fetch, hphase, hrow]
  rfl

end Sys2Proof.Machine
end

section
/-! The three byte streams over every step (R51, R59, R61, R141, R174, R196): who moves the bytes of each, said once, and what
that means for the payload phase (R247). -/

namespace Sys2Proof.Machine

/-- The contents of the three byte streams (R51). -/
structure Streams where
  txq : List Byte
  rxq : List Byte
  plq : List Byte

/-- Those of a state. -/
def State.streams (s : State) : Streams where
  txq := s.txq
  rxq := s.rxq
  plq := s.plq

theorem queues_of_streams_eq {t : State} {u : Streams} (h : t.streams = u) :
    t.txq = u.txq ∧ t.rxq = u.rxq ∧ t.plq = u.plq :=
  ⟨congrArg Streams.txq h, congrArg Streams.rxq h, congrArg Streams.plq h⟩

/-- The moves in which a reading engine takes bytes: a turn of its own, a byte event, a tick (R132, R134). -/
abbrev ReadMoves (s : State) : Prop :=
  EngMoves s ∨ s.sched.head? = some .engByte ∨ s.sched.head? = some .tick

/-- What a step does to the streams. -/
inductive StreamChange (s t : State) : Prop where
  /-- They are as they were. -/
  | kept (h : t.streams = s.streams)
  /-- ENG sends bytes of a packet (R140). -/
  | sends (hmoves : EngMoves s) (hphase : s.phase = .txHdr) (sent : List Byte)
      (h : t.streams = { s.streams with txq := s.txq ++ sent })
  /-- ENG passes bytes of a block from SRC to the channel (R171). -/
  | pays (hmoves : EngMoves s) (hphase : s.phase = .txPay) (sent : List Byte) (n : Nat) (hn : n ≤ s.blkLen - s.payIdx)
      (h : t.streams = { s.streams with txq := s.txq ++ sent, plq := s.plq.drop n })
  /-- The read in progress takes bytes (R132). -/
  | reads (hmoves : ReadMoves s) (hphase : s.phase = .rxWord) (n : Nat) (hn : n ≤ 4 - s.rxIdx)
      (h : t.streams = { s.streams with rxq := s.rxq.drop n })
  /-- DEV sends a byte (R33). -/
  | devSends (b : Byte) (hmove : s.sched.head? = some (.devSend b))
      (h : t.streams = { s.streams with rxq := s.rxq ++ [b] })
  /-- DEV consumes a byte (R33). -/
  | devTakes (hmove : s.sched.head? = some .devTake) (h : t.streams = { s.streams with txq := s.txq.tail })
  /-- SRC delivers bytes (R174). -/
  | delivers (avail : Bool) (more : List Byte) (err : Bool) (hmove : s.sched.head? = some (.source avail more err))
      (h : t.streams = { s.streams with plq := s.plq ++ more })
  /-- SEQ connects a file (R196). -/
  | connects (hmoves : SeqMoves s) (image : Option (List Byte)) (hact : s.seqActs.head? = some (.connect image))
      (h : t.streams = { s.streams with plq := image.getD [] })

/-! ### The operations of ENG -/

theorem downloadLoop_streams (n : Nat) (s : State) : (downloadLoop n s).streams = s.streams := by
  apply downloadLoop_elim n s (fun t => t.streams = s.streams) <;> intros <;> rfl

/-- Acceptance moves no byte (R150). -/
theorem acceptance_streams {s t : State} (hphase : s.phase = .idle) (h : exec (decodeCommandRow s.cmd) s = .next t) :
    t.streams = s.streams := by
  apply acceptance_elim (fun t => t.streams = s.streams) hphase h
  case download => intro _ _; exact downloadLoop_streams 0 _
  all_goals intros; rfl

theorem txWrite_streams (s : State) : ∃ sent, (txWrite s).streams = { s.streams with txq := s.txq ++ sent } := by
  apply txWrite_elim s (fun t => ∃ sent, t.streams = { s.streams with txq := s.txq ++ sent }) <;>
    exact fun sent _ _ => ⟨sent, rfl⟩

/-- How a payload turn ends moves no more bytes than the attempt to write them. -/
theorem payTurn_streams (s : State) : (payTurn s).streams = (payAdvance s).streams := by
  cases hhow : (payOffer s).how with
  | done =>
    by_cases hwant : s.blkLen - s.payIdx ≤ s.plq.length
    · rw [payTurn_of_block hhow hwant]
      exact downloadLoop_streams 1 _
    · rw [payTurn_of_source hhow hwant]
      split <;> rfl
  | error => rw [payTurn_of_error hhow]; rfl
  | stall => rw [payTurn_of_stall hhow]

/-- A payload turn reads no more bytes from SRC than the block lacks, a byte that is refused included (R171, log 13). -/
theorem payAdvance_streams (s : State) :
    ∃ sent n, n ≤ s.blkLen - s.payIdx ∧
      (payAdvance s).streams = { s.streams with txq := s.txq ++ sent, plq := s.plq.drop n } := by
  refine ⟨_, _, ?_, rfl⟩
  have hready : (s.plq.take (s.blkLen - s.payIdx)).length ≤ s.blkLen - s.payIdx := List.length_take_le _ _
  split
  · next hhow =>
    have hsent : (payOffer s).sent.length < (s.plq.take (s.blkLen - s.payIdx)).length :=
      txOffer_sent_length_lt (hhow.trans_ne (by decide))
    omega
  · have hsent : (payOffer s).sent.length ≤ (s.plq.take (s.blkLen - s.payIdx)).length := txOffer_sent_length_le _ _ _
    omega

/-- The compare of a word moves no byte (R137). -/
theorem afterWord_streams (w : Word) (s : State) : (afterWord w s).streams = s.streams := by
  apply afterWord_elim w s (fun t => t.streams = s.streams) <;> intros <;> rfl

/-- The word that completes a read takes the bytes it lacks (R132). -/
theorem receive_streams {s : State} (hphase : s.phase = .rxWord) (r : Vector Byte 4) :
    (receive r s).streams = { s.streams with rxq := s.rxq.drop (4 - s.rxIdx) } := by
  rw [receive, if_pos hphase]
  exact afterWord_streams _ _

/-- An incomplete word takes all there is, which is less than it lacks (R132). -/
theorem takeAvailable_streams {s : State} (hphase : s.phase = .rxWord) (hready : wordReady s = false) :
    ∃ n, n ≤ 4 - s.rxIdx ∧ (takeAvailable s).streams = { s.streams with rxq := s.rxq.drop n } := by
  have hlen : s.rxIdx + s.rxq.length < 4 := by simpa [wordReady, hphase] using hready
  refine ⟨s.rxq.length, by omega, ?_⟩
  simp only [State.streams, takeAvailable_txq, takeAvailable_rxq, takeAvailable_plq, (takeBytes_partial _ _ _ hlen).1,
    List.drop_length]

/-- A tick moves the bytes that are taken before it counts (R133). -/
theorem countTick_streams {s : State} (hphase : s.phase = .rxWord) :
    (countTick s).streams = (takeAvailable s).streams := by
  apply countTick_elim s (fun t => t.streams = (takeAvailable s).streams)
  case outside => exact absurd hphase
  all_goals intros; rfl

/-! ### The moves -/

/-- The turn of a reading engine, whoever gives it. -/
theorem streamChange_of_reading_turn {s t : State} (hmoves : ReadMoves s) (hphase : s.phase = .rxWord)
    (h : engineTurn s.atMove = .next t) : StreamChange s t := by
  rw [engineTurn_rxWord (s := s.atMove) hphase] at h
  cases h
  split
  · exact .reads hmoves hphase _ le_rfl (receive_streams (s := s.atMove) hphase _)
  · next hready =>
    obtain ⟨n, hn, ht⟩ := takeAvailable_streams (s := s.atMove) hphase (Bool.eq_false_of_not_eq_true hready)
    exact .reads hmoves hphase n hn ht

/-- ENG's turn. -/
theorem streamChange_of_engineTurn {s t : State} (hmoves : EngMoves s) (h : engineTurn s.atMove = .next t) :
    StreamChange s t := by
  cases hphase : s.phase with
  | idle =>
    rw [engineTurn_idle (s := s.atMove) hphase] at h
    split at h
    · exact .kept (acceptance_streams (s := s.atMove) hphase h)
    · cases h; exact .kept rfl
  | txHdr =>
    rw [engineTurn_txHdr (s := s.atMove) hphase] at h
    cases h
    obtain ⟨sent, ht⟩ := txWrite_streams s.atMove
    exact .sends hmoves hphase sent ht
  | rxWord => exact streamChange_of_reading_turn (.inl hmoves) hphase h
  | txPay =>
    rw [engineTurn_txPay (s := s.atMove) hphase] at h
    cases h
    obtain ⟨sent, n, hn, ht⟩ := payAdvance_streams s.atMove
    exact .pays hmoves hphase sent n hn ((payTurn_streams _).trans ht)

/-- A byte event (R132). -/
theorem streamChange_of_byteTurn {s t : State} (hmove : s.sched.head? = some .engByte)
    (h : byteTurn s.atMove = .next t) : StreamChange s t := by
  have hmoves : ReadMoves s := .inr (.inl hmove)
  unfold byteTurn at h
  split at h
  · next hphase =>
    split at h
    · next hidx =>
      cases h
      have hidx : s.rxIdx < 3 := hidx
      exact .reads hmoves hphase 1 (by omega) rfl
    · exact streamChange_of_reading_turn hmoves hphase h
  · cases h; exact .kept rfl

/-- A tick (R133, R134). -/
theorem streamChange_of_tickTurn {s t : State} (hmove : s.sched.head? = some .tick)
    (h : tickTurn s.atMove = .next t) : StreamChange s t := by
  have hmoves : ReadMoves s := .inr (.inr hmove)
  by_cases hphase : s.phase = .rxWord
  · unfold tickTurn at h
    split at h
    · exact streamChange_of_reading_turn hmoves hphase h
    · next hready =>
      cases h
      obtain ⟨n, hn, ht⟩ := takeAvailable_streams (s := s.atMove) hphase (Bool.eq_false_of_not_eq_true hready)
      exact .reads hmoves hphase n hn ((countTick_streams (s := s.atMove) hphase).trans ht)
  · have hready : wordReady s.atMove = false := by simp [wordReady, State.atMove, hphase]
    rw [tickTurn, hready, if_neg (by simp), countTick_of_not_reading s.atMove hphase] at h
    cases h
    exact .kept rfl

@[simp] theorem readResult_streams (s : State) : (readResult s).streams = s.streams := by
  unfold readResult
  split
  · split <;> rfl
  · rfl

/-- SEQ's turn writes a stream only where it connects a file (R196). -/
theorem streamChange_of_seqTurn {s t : State} (hmoves : SeqMoves s) (h : seqTurn s.atMove = .next t) :
    StreamChange s t := by
  obtain ⟨-, rfl⟩ | ⟨-, -, rfl⟩ | ⟨-, -, a, rest, hacts, rfl⟩ | ⟨-, -, -, ops, acts, rfl⟩ := seqTurn_cases h
  · exact .kept rfl
  · exact .kept (readResult_streams s.atMove)
  · have hacts : s.seqActs = a :: rest := hacts
    cases a with
    | connect image => exact .connects hmoves image (by rw [hacts]; rfl) rfl
    | issue | setBaudRate => exact .kept rfl
  · exact .kept rfl

/-- What any step does to the streams. -/
theorem streamChange_of_step {s t : State} (h : step s = .next t) : StreamChange s t := by
  obtain ⟨hmoves, heng⟩ | ⟨hmoves, hseq⟩ | ⟨m, hhead, heng, hseq, hmove⟩ := step_mover h
  · exact streamChange_of_engineTurn hmoves heng
  · exact streamChange_of_seqTurn hmoves hseq
  · cases m with
    | eng => exact absurd rfl heng
    | seq => exact absurd rfl hseq
    | engByte => exact streamChange_of_byteTurn hhead hmove
    | tick => exact streamChange_of_tickTurn hhead hmove
    | devSend b => cases hmove; exact .devSends b hhead rfl
    | devTake => cases hmove; exact .devTakes hhead rfl
    | source avail more err => cases hmove; exact .delivers avail more err hhead rfl
    | operands | request | program | channel | reset => cases hmove; exact .kept rfl

/-- Settles O52: each end of a stream is moved by the one change that names it. -/
theorem streamsAreFirstInFirstOut : Obligations.StreamsAreFirstInFirstOut := by
  unfold Obligations.StreamsAreFirstInFirstOut
  intro s t h
  cases streamChange_of_step h with
  | kept ht =>
    obtain ⟨htx, hrx, hpl⟩ := queues_of_streams_eq ht
    exact ⟨.inl htx, .inl hrx, .inl hpl⟩
  | sends hmoves hphase sent ht =>
    obtain ⟨htx, hrx, hpl⟩ := queues_of_streams_eq ht
    exact ⟨.inr (.inl ⟨hmoves, .inl hphase, sent, htx⟩), .inl hrx, .inl hpl⟩
  | pays hmoves hphase sent n hn ht =>
    obtain ⟨htx, hrx, hpl⟩ := queues_of_streams_eq ht
    exact ⟨.inr (.inl ⟨hmoves, .inr hphase, sent, htx⟩), .inl hrx, .inr (.inl ⟨hmoves, hphase, n, hn, hpl⟩)⟩
  | reads hmoves hphase n hn ht =>
    obtain ⟨htx, hrx, hpl⟩ := queues_of_streams_eq ht
    exact ⟨.inl htx, .inr (.inl ⟨hmoves, hphase, n, hn, hrx⟩), .inl hpl⟩
  | devSends b hmove ht =>
    obtain ⟨htx, hrx, hpl⟩ := queues_of_streams_eq ht
    exact ⟨.inl htx, .inr (.inr ⟨b, hmove, hrx⟩), .inl hpl⟩
  | devTakes hmove ht =>
    obtain ⟨htx, hrx, hpl⟩ := queues_of_streams_eq ht
    exact ⟨.inr (.inr ⟨hmove, htx⟩), .inl hrx, .inl hpl⟩
  | delivers avail more err hmove ht =>
    obtain ⟨htx, hrx, hpl⟩ := queues_of_streams_eq ht
    exact ⟨.inl htx, .inl hrx, .inr (.inr (.inl ⟨avail, more, err, hmove, hpl⟩))⟩
  | connects hmoves image hact ht =>
    obtain ⟨htx, hrx, hpl⟩ := queues_of_streams_eq ht
    exact ⟨.inl htx, .inl hrx, .inr (.inr (.inr ⟨image, hmoves, hact, hpl⟩))⟩

/-! ### The payload phase (R247) -/

theorem downloadLoop_phase (n : Nat) (s : State) : (downloadLoop n s).phase ≠ .txPay := by
  apply downloadLoop_elim n s (fun t => t.phase ≠ .txPay) <;> intro _ <;> exact nofun

/-- Acceptance begins a header at most (R150, R170). -/
theorem acceptance_phase {s t : State} (hphase : s.phase = .idle) (h : exec (decodeCommandRow s.cmd) s = .next t) :
    t.phase ≠ .txPay := by
  apply acceptance_elim (fun t => t.phase ≠ .txPay) hphase h
  case download => intro _ _; exact downloadLoop_phase 0 _
  all_goals intros; exact nofun

/-- A sending engine goes on sending, reads, or is done (R140). -/
theorem txWrite_phase {s : State} (hphase : s.phase = .txHdr) : (txWrite s).phase ≠ .txPay := by
  apply txWrite_elim s (fun t => t.phase ≠ .txPay) <;> intros
  case stall => exact hphase.trans_ne nofun
  all_goals exact nofun

/-- A tick does not end a read in a payload (R133). -/
theorem countTick_phase {s : State} (hphase : s.phase = .rxWord) : (countTick s).phase ≠ .txPay := by
  apply countTick_elim s (fun t => t.phase ≠ .txPay)
  case outside => exact absurd hphase
  case count => intros; exact hphase.trans_ne nofun
  case short => intros; exact nofun

/-- Of the words read only the ack of a block header leads to its payload (R171). -/
theorem payload_of_afterWord {w : Word} {s : State} (h : (afterWord w s).phase = .txPay) :
    s.lat.op = opDownload ∧ (afterWord w s).obs0 = magicAck ∧ (afterWord w s).payIdx = 0 := by
  revert h
  apply afterWord_elim w s fun t => t.phase = .txPay → s.lat.op = opDownload ∧ t.obs0 = magicAck ∧ t.payIdx = 0
  case payload => exact fun hop hw _ => ⟨hop, hw, rfl⟩
  all_goals intros; contradiction

/-- The same of the word that completes a read. -/
theorem payload_of_receive {r : Vector Byte 4} {s : State} (hphase : s.phase = .rxWord)
    (h : (receive r s).phase = .txPay) :
    s.lat.op = opDownload ∧ (receive r s).obs0 = magicAck ∧ (receive r s).payIdx = 0 := by
  rw [receive, if_pos hphase] at h ⊢
  exact payload_of_afterWord h

/-- A step into the payload phase reads the ack of a block header. -/
theorem payload_of_step {s t : State} (h : step s = .next t) (hs : s.phase ≠ .txPay) (ht : t.phase = .txPay) :
    s.phase = .rxWord ∧ s.lat.op = opDownload ∧ t.obs0 = magicAck ∧ t.payIdx = 0 := by
  cases effect_of_step h with
  | accepts _ hphase _ hexec => exact absurd ht (acceptance_phase (s := s.atMove) hphase hexec)
  | sends hphase => exact absurd ht (txWrite_phase (s := s.atMove) hphase)
  | reads hphase => exact ⟨hphase, payload_of_receive (s := s.atMove) hphase ht⟩
  | takes | takesByte => exact absurd ht hs
  | counts hphase => exact absurd ht (countTick_phase (s := s.atMove) hphase)
  | pays hphase => exact absurd hphase hs
  | resets => cases ht
  | elsewhere hreg =>
    have hkept : t.registers.phase = s.registers.phase := by rw [hreg]
    exact absurd (hkept.symm.trans ht) hs

/-- Settles O53: of the effects of a step only a word read leads into the payload, and of the changes of the streams those of
SRC and of SEQ alone touch `plq` outside it. -/
theorem payloadOnlyAfterAck : Obligations.PayloadOnlyAfterAck := by
  unfold Obligations.PayloadOnlyAfterAck
  intro s t h hs
  refine ⟨payload_of_step h hs, ?_⟩
  cases streamChange_of_step h with
  | pays _ hphase => exact absurd hphase hs
  | delivers avail more err hmove ht => exact .inr (.inl ⟨avail, more, err, hmove, congrArg Streams.plq ht⟩)
  | connects hmoves image hact ht => exact .inr (.inr ⟨image, hmoves, hact, congrArg Streams.plq ht⟩)
  | kept ht | sends _ _ _ ht | reads _ _ _ _ ht | devSends _ _ ht | devTakes _ ht => exact .inl (congrArg Streams.plq ht)

end Sys2Proof.Machine
end

section
/-! SUPPORT. The steps of ENG when nothing else moves (log 2), one lemma per kind of step: acceptance, a whole packet over a
channel that accepts, a whole word that waits. A command's run is a chain of these. -/

namespace Sys2Proof.Machine

/-- WORD after WORD_BYTES gives the word back (R115). -/
@[simp] theorem wordOfResponse_responseOfWord (cfg : Config) (w : Word) : wordOfResponse cfg (responseOfWord cfg w) = w := by
  cases horder : cfg.respLsbFirst <;> simp [responseOfWord, wordOfResponse, horder]

/-- P_SYNC's bytes are the same under both orders of the header (R86, R111). -/
theorem encodePacket_pSync (cfg : Config) :
    (encodePacket cfg pSync).toList = [0x05, 0x05, 0, 0, 0, 0, 0, 0, 0, 0, 0, 0, 0, 0, 0, 0] := by
  cases horder : cfg.hdrLsbFirst <;> simp only [encodePacket, horder] <;> rfl

/-- A channel that accepts `m + n` bytes accepts `n` after the first `m`. -/
theorem channelAccepts_drop {m n : Nat} {s t : State} (h : ChannelAccepts (m + n) s)
    (hreplies : t.txReplies = s.txReplies.drop m) (hrest : t.txRest = s.txRest) : ChannelAccepts n t := by
  intro k hk
  have := h (m + k) (by omega)
  rw [hreplies, hrest]
  simpa [List.getD_eq_getElem?_getD, List.getElem?_drop] using this

/-- The state in which the answer to the packet of `txbuf` is read: all of it is out (R131, R140). -/
@[simps] def State.packetSent (s : State) : State :=
  { s with
    progValid := false, txq := s.txq ++ s.txbuf.toList, txIdx := 16, txReplies := s.txReplies.drop 16
    phase := .rxWord, rxIdx := 0, guardCnt := s.cfg.timeoutTicks }

/-- The state in which a read goes on with its word `r`, taken whole from `rxq`, of which `q` is left (R132). -/
@[simps] def State.wordTaken (r : Vector Byte 4) (q : List Byte) (s : State) : State :=
  { s with progValid := false, rxq := q, rxIdx := 4, rxbuf := r }

/-- TxWrite of a whole packet (R140). -/
theorem txWrite_accepts {s : State} (hidx : s.txIdx = 0) (hchan : ChannelAccepts 16 s) :
    txWrite { s with progValid := false } = s.packetSent := by
  have hlen : s.txbuf.toList.length = 16 := Vector.length_toList
  have hoffer := txOffer_accepts s.txbuf.toList s.txReplies s.txRest (by rwa [hlen])
  simp only [txWrite, armRead, State.packetSent, hidx, List.drop_zero, hoffer, hlen, Nat.zero_add]

/-- A whole word at the front of `rxq` is the word that is ready (R132). -/
theorem readyBytes_word {s : State} {r : Vector Byte 4} {q : List Byte} (hphase : s.phase = .rxWord) (hidx : s.rxIdx = 0)
    (hrxq : s.rxq = r.toList ++ q) : wordReady s = true ∧ readyBytes s = r := by
  obtain ⟨hlen, hr⟩ := readyBytes_eq (s := s) (r := r) (by omega) (by simp [hidx, hrxq])
  exact ⟨by simp [wordReady, hphase, hlen], hr⟩

/-- The step of an engine at work with an empty schedule is its turn. -/
theorem step_engine {s : State} (hsched : s.sched = []) (hwork : s.phase ≠ .idle ∨ s.cmdValid = true) :
    step s = engineTurn { s with progValid := false } := by
  rw [step_of_engMoves (.inr ⟨hsched, hwork⟩), atMove_of_sched_nil hsched]

/-- An idle engine takes up the descriptor presented (R33). -/
theorem step_accepts {s : State} (hsched : s.sched = []) (hphase : s.phase = .idle) (hreq : s.cmdValid = true) :
    step s = exec (decodeCommandRow s.cmd) { s with progValid := false } := by
  rw [step_engine hsched (.inr hreq), engineTurn_idle (s := { s with progValid := false }) hphase, if_pos hreq]

/-- A sending engine sends the whole packet (R140). -/
theorem step_sends {s : State} (hsched : s.sched = []) (hphase : s.phase = .txHdr) (hidx : s.txIdx = 0)
    (hchan : ChannelAccepts 16 s) : step s = .next s.packetSent := by
  rw [step_engine hsched (.inl (hphase.trans_ne nofun)), engineTurn_txHdr (s := { s with progValid := false }) hphase,
    txWrite_accepts hidx hchan]

/-- A reading engine takes the whole word and goes on with it (R132, R137). -/
theorem step_reads {s : State} {r : Vector Byte 4} {q : List Byte} (hsched : s.sched = []) (hphase : s.phase = .rxWord)
    (hidx : s.rxIdx = 0) (hrxq : s.rxq = r.toList ++ q) :
    step s = .next (afterWord (wordOfResponse s.cfg r) (s.wordTaken r q)) := by
  obtain ⟨hready, hr⟩ := readyBytes_word (s := { s with progValid := false }) hphase hidx hrxq
  rw [step_engine hsched (.inl (hphase.trans_ne nofun)), engineTurn_rxWord (s := { s with progValid := false }) hphase,
    if_pos hready, hr, receive, if_pos hphase]
  simp only [hidx, hrxq, Nat.sub_zero, List.drop_left' (Vector.length_toList (xs := r)), State.wordTaken]

/-- The first step of a command's run is its acceptance (R150). -/
theorem run_acceptance {s t : State} (k : Nat) (hsched : s.sched = []) (hphase : s.phase = .idle)
    (hreq : s.cmdValid = true) (h : exec (decodeCommandRow s.cmd) { s with progValid := false } = .next t) :
    Host.Core.run Sys2Proof.core (k + 1) s = Host.Core.run Sys2Proof.core k t :=
  run_succ k s t ((step_accepts hsched hphase hreq).trans h)

/-- A read whose word waits takes one step (R132). -/
theorem run_read {s t : State} {r : Vector Byte 4} {q : List Byte} (k : Nat) (hsched : s.sched = [])
    (hphase : s.phase = .rxWord) (hidx : s.rxIdx = 0) (hrxq : s.rxq = r.toList ++ q)
    (h : afterWord (wordOfResponse s.cfg r) (s.wordTaken r q) = t) :
    Host.Core.run Sys2Proof.core (k + 1) s = Host.Core.run Sys2Proof.core k t :=
  run_succ k s t (h ▸ step_reads hsched hphase hidx hrxq)

/-- An exchange over a channel that accepts, its answer waiting, takes two steps (R131, R140). -/
theorem run_exchange {s t : State} {r : Vector Byte 4} {q : List Byte} (k : Nat) (hsched : s.sched = [])
    (hphase : s.phase = .txHdr) (hidx : s.txIdx = 0) (hchan : ChannelAccepts 16 s) (hrxq : s.rxq = r.toList ++ q)
    (h : afterWord (wordOfResponse s.cfg r) (s.packetSent.wordTaken r q) = t) :
    Host.Core.run Sys2Proof.core (k + 2) s = Host.Core.run Sys2Proof.core k t :=
  (run_succ (k + 1) _ _ (step_sends hsched hphase hidx hchan)).trans
    (run_read (s := s.packetSent) k hsched rfl rfl hrxq h)

end Sys2Proof.Machine
end

section
/-! SUPPORT. What the descriptor presented begins, and what a word leads to in each command (R137, R150 to R153). -/

namespace Sys2Proof.Machine

/-! ### The descriptor (R150) -/

/-- A descriptor is latched as it is presented. -/
theorem latched_eq {d : Descriptor} {o : BitVec 3} (h : d.op = o) : { d with op := o } = d := by
  rw [← h]

theorem exec_presented_sync {s : State} (hphase : s.phase = .idle) (hop : s.cmd.op = opSync) :
    exec (decodeCommandRow s.cmd) s = .next (beginSend pSync (accept s.cmd s)) := by
  rw [decodeCommandRow, if_pos hop, exec_cmdSync_idle hphase, latched_eq hop]

theorem exec_presented_setreg {s : State} (hphase : s.phase = .idle) (hop : s.cmd.op = opSetreg)
    (hsynced : s.synced = true) (hwidth : legalWidth s.cmd.width = true) :
    exec (decodeCommandRow s.cmd) s =
      .next (beginSend (pSetreg s.cmd.addr s.cmd.width s.cmd.value) (accept s.cmd s)) := by
  have hrow : decodeCommandRow s.cmd = .cmdSetreg s.cmd.addr s.cmd.width s.cmd.value s.cmd.ign := by
    simp [decodeCommandRow, hop, opSync, opSetreg]
  rw [hrow, exec_cmdSetreg_idle hphase]
  simp only [latched_eq hop, hwidth, if_true, whenSynced_accept hsynced]

theorem exec_presented_run {s : State} {target : Word} (hphase : s.phase = .idle) (hop : s.cmd.op = opRun)
    (hsynced : s.synced = true) (htarget : runTarget s.cmd.addr s = some target) :
    exec (decodeCommandRow s.cmd) s =
      .next (beginSend (pRun target) { accept s.cmd s with res := { s.res with addr := target } }) := by
  have hrow : decodeCommandRow s.cmd = .cmdRun s.cmd.addr := by
    simp [decodeCommandRow, hop, opSync, opSetreg, opDownload, opRun]
  rw [hrow, exec_cmdRun_idle hphase htarget]
  simp only [latched_eq hop, whenSynced_accept hsynced, accept_res]

/-! ### The word (R137) -/

/-- SYNC's word ends it and decides `synced` (R151). -/
theorem afterWord_sync {s : State} (w : Word) (h : s.lat.op = opSync) :
    afterWord w s = complete (if w = magicSync then .ok else .protocolMismatch) false 1
      { s with obs0 := w, synced := s.synced || decide (w = magicSync) } := by
  rw [afterWord, if_pos h, syncWord]
  by_cases hw : w = magicSync <;> simp [hw]

/-- SETREG's first word is kept, and the second read armed (R152). -/
theorem afterWord_setreg_first {s : State} (w : Word) (h : s.lat.op = opSetreg) (hstep : s.step = 0) :
    afterWord w s = armRead { s with obs0 := w, step := 1 } := by
  simp [afterWord, setregWord, h, hstep, opSync, opSetreg]

/-- Both are compared after the second, and `lat_ign` makes a mismatch Ok (R152, R219). -/
theorem afterWord_setreg_second {s : State} (w : Word) (h : s.lat.op = opSetreg) (hstep : s.step = 1) :
    afterWord w s = complete
      (if (s.obs0 = magicAck ∧ w = magicAck2) ∨ s.lat.ign = true then .ok else .protocolMismatch)
      (decide (¬(s.obs0 = magicAck ∧ w = magicAck2)) && s.lat.ign) 2 { s with obs1 := w } := by
  have hword : afterWord w s = setregWord w s := by simp [afterWord, h, opSync, opSetreg]
  rw [hword, setregWord, if_neg (by rw [hstep]; decide)]
  by_cases hacks : s.obs0 = magicAck ∧ w = magicAck2
  · simp [hacks]
  · cases hign : s.lat.ign <;> simp [hacks]

/-- The ack of RUN's packet begins the handshake (R153). -/
theorem afterWord_run_ack {s : State} {w : Word} (hw : w = magicAck) (h : s.lat.op = opRun) (hstep : s.step = 0) :
    afterWord w s = beginSend pSync { s with obs0 := w, step := 1 } := by
  simp [afterWord, runWord, h, hstep, hw, opSync, opSetreg, opDownload, opRun]

/-- The handshake's word ends RUN (R153). -/
theorem afterWord_run_second {s : State} (w : Word) (h : s.lat.op = opRun) (hstep : s.step = 1) :
    afterWord w s = complete (if w = magicRunA ∨ w = magicRunB then .ok else .protocolMismatch) false 1
      { s with obs0 := w } := by
  have hword : afterWord w s = runWord w s := by simp [afterWord, h, opSync, opSetreg, opDownload, opRun]
  rw [hword, runWord, if_neg (by rw [hstep]; decide)]
  split <;> rfl

end Sys2Proof.Machine
end

section
/-! Whole commands, run by the machine's own steps (R151 to R153): acceptance, then one exchange after another. -/

namespace Sys2Proof.Machine

/-- Settles O55: acceptance and one exchange. -/
theorem syncCommandRuns : Obligations.SyncCommandRuns := by
  unfold Obligations.SyncCommandRuns
  intro s r q hsched hphase hreq hop hchan hrxq
  have haccepted := run_acceptance 2 hsched hphase hreq
    (exec_presented_sync (s := { s with progValid := false }) hphase hop)
  have hended := haccepted.trans (run_exchange (r := r) (q := q) 0 hsched rfl rfl hchan hrxq (afterWord_sync _ hop))
  exact ⟨_, hended, rfl, rfl, by simp [encodePacket_pSync], rfl, rfl, rfl, rfl, rfl, rfl, rfl, rfl⟩

/-- Settles O56: acceptance, one exchange, and the read of the second word. -/
theorem setregCommandRuns : Obligations.SetregCommandRuns := by
  unfold Obligations.SetregCommandRuns
  intro s r0 r1 q hsched hphase hreq hop hsynced hwidth hchan hrxq
  have haccepted := run_acceptance 3 hsched hphase hreq
    (exec_presented_setreg (s := { s with progValid := false }) hphase hop hsynced (legalWidth_of_mem hwidth))
  have hfirst := haccepted.trans
    (run_exchange (r := r0) (q := r1.toList ++ q) 1 hsched rfl rfl hchan hrxq (afterWord_setreg_first _ hop rfl))
  have hended := hfirst.trans
    (run_read (r := r1) (q := q) 0 (by simpa using hsched) rfl rfl rfl (afterWord_setreg_second _ hop rfl))
  refine ⟨_, hended, ?_⟩
  simp [pSetreg, hdrSetreg, magicAck, magicAck2, resObs0, resObs1, resAddr, hop, hsynced, opSetreg]

/-- Settles O57: acceptance, the exchange that the ack ends, and the handshake. -/
theorem runCommandRuns : Obligations.RunCommandRuns := by
  unfold Obligations.RunCommandRuns
  intro s target r q hsched hphase hreq hop hsynced htarget hchan hrxq
  have haccepted := run_acceptance 4 hsched hphase hreq
    (exec_presented_run (s := { s with progValid := false }) hphase hop hsynced (runTarget_of_entry htarget))
  have hfirst : ChannelAccepts 16 s := fun k hk => hchan k (by omega)
  have hacked := haccepted.trans
    (run_exchange (q := r.toList ++ q) 2 hsched rfl rfl hfirst hrxq
      (afterWord_run_ack (wordOfResponse_responseOfWord s.cfg magicAck) hop rfl))
  have hended := hacked.trans
    (run_exchange (r := r) (q := q) 0 (by simpa using hsched) rfl rfl (channelAccepts_drop hchan rfl rfl) rfl
      (afterWord_run_second _ hop rfl))
  refine ⟨_, hended, ?_⟩
  simp [pRun, hdrDlrun, endFinal, magicRunA, magicRunB, encodePacket_pSync, resObs0, resAddr, hop, hsynced, opSetreg, opRun]

end Sys2Proof.Machine
end

section
/-! SUPPORT. The encoder and the decoder row by row: what the encoder writes for each format, and the decoder's checks on a packet
for each header, in their order (R86, R87, R89, R90). -/

namespace Sys2Proof.Machine

/-! ### Packet and response rows (R86, R89, R93) -/

theorem encode_of_packetOf (cfg : Config) {i : Instr} {p : Packet} (hp : packetOf i = some p) :
    encode cfg i = .packet (encodePacket cfg p) := by
  cases i <;> cases hp <;> rfl

theorem encode_of_wordOfRow (cfg : Config) {i : Instr} {w : Word} (hw : wordOfRow i = some w) :
    encode cfg i = .response (responseOfWord cfg w) := by
  cases i <;> cases hw <;> rfl

/-- Every word is admitted in a response row, which has no operand. -/
theorem wellFormed_of_wordOfRow {i : Instr} {w : Word} (hw : wordOfRow i = some w) : i.wellFormed = true := by
  cases i <;> cases hw <;> rfl

/-- The five response words differ, so that a row's word is decoded to that row (R89). -/
theorem decodeResponseRow_of_wordOfRow {cfg : Config} {r : Vector Byte 4} {i : Instr}
    (hw : wordOfRow i = some (wordOfResponse cfg r)) : decodeResponseRow cfg r = .ok i := by
  unfold decodeResponseRow
  generalize wordOfResponse cfg r = w at hw ⊢
  cases i <;> cases hw <;> rfl

/-- A response that is rejected is none of the five words (R89). -/
theorem wordOfRow_ne_of_notAResponse {cfg : Config} {r : Vector Byte 4}
    (h : decodeResponseRow cfg r = .error .notAResponse) (i : Instr) : wordOfRow i ≠ some (wordOfResponse cfg r) := by
  intro hw
  rw [decodeResponseRow_of_wordOfRow hw] at h
  cases h

/-! ### Command rows (R90, R91) -/

/-- A reserved code is not one of the four, and its low two bits are the row's (R91). -/
theorem decodeCommandRow_reserved (x : BitVec 2) :
    decodeCommandRow (descriptorOf ((1 : BitVec 1) ++ x)) = .cmdReserved x := by
  revert x
  decide

/-- A command row's descriptor is decoded to that row, in either exchange. -/
theorem decode_encode_of_isCommandRow (cfg : Config) (handshake : Bool) {i : Instr} (hi : isCommandRow i = true) :
    decode cfg handshake (encode cfg i) = .ok i := by
  cases i with
  | cmdSync | cmdSetreg | cmdDownload | cmdRun => rfl
  | cmdReserved x => exact congrArg Except.ok (decodeCommandRow_reserved x)
  | _ => cases hi

/-- Every row of the table is a packet, a response or a command row (R93). -/
theorem row_cases (i : Instr) :
    (∃ p, packetOf i = some p) ∨ (∃ w, wordOfRow i = some w) ∨ isCommandRow i = true := by
  cases i with
  | sync | setreg | downloadDlblk | run | runHshake => exact .inl ⟨_, rfl⟩
  | respSyncOk | respAck | respAck2 | respRunA | respRunB => exact .inr (.inl ⟨_, rfl⟩)
  | cmdSync | cmdSetreg | cmdDownload | cmdRun | cmdReserved => exact .inr (.inr rfl)

/-! ### The decoder's checks, by header (R86, R87) -/

section

variable {cfg : Config} {handshake : Bool} {p : Packet}

theorem decodePacketRow_of_reservedHeader (hsync : p.header ≠ hdrSync) (hsetreg : p.header ≠ hdrSetreg)
    (hdlrun : p.header ≠ hdrDlrun) :
    decodePacketRow cfg handshake (encodePacket cfg p) = .error .reservedHeader := by
  simp [decodePacketRow, classify, hsync, hsetreg, hdlrun]

theorem decodePacketRow_of_hdrSync (h : p.header = hdrSync) :
    decodePacketRow cfg handshake (encodePacket cfg p) =
      if p = pSync then .ok (if handshake then .runHshake else .sync) else .error .fieldNotZero := by
  simp [decodePacketRow, classify, h]

theorem decodePacketRow_of_hdrSetreg (h : p.header = hdrSetreg) :
    decodePacketRow cfg handshake (encodePacket cfg p) =
      if legalWidth p.type = false then .error .badWidth
      else if p = pSetreg p.address p.type p.data then .ok (.setreg p.address p.type p.data)
      else .error .fieldNotZero := by
  simp [decodePacketRow, classify, h, hdrSetreg, hdrSync]

/-- A DOWNLOAD packet that does not end as RUN's does is a block header. -/
theorem decodePacketRow_of_blockHeader (h : p.header = hdrDlrun) (hend : p.endFlag ≠ endFinal) :
    decodePacketRow cfg handshake (encodePacket cfg p) =
      if p.endFlag ≠ 0 then .error .badEnd
      else if p.length.toNat < 1 ∨ blockMax < p.length.toNat then .error .badLength
      else if p = pDlblk p.address p.length then .ok (.downloadDlblk p.address p.length)
      else .error .fieldNotZero := by
  simp [decodePacketRow, classify, h, hend, hdrDlrun, hdrSetreg, hdrSync]

theorem decodePacketRow_of_runHeader (h : p.header = hdrDlrun) (hend : p.endFlag = endFinal) :
    decodePacketRow cfg handshake (encodePacket cfg p) =
      if p = pRun p.address then .ok (.run p.address) else .error .fieldNotZero := by
  simp [decodePacketRow, classify, h, hend, hdrDlrun, hdrSetreg, hdrSync]

/-- The decoder has checked the operands of every packet row it names (R83, R86). -/
theorem wellFormed_of_decodePacketRow {i : Instr}
    (h : decodePacketRow cfg handshake (encodePacket cfg p) = .ok i) : i.wellFormed = true := by
  have hp := packetOf_of_decodePacketRow h
  rw [decodePacket_encodePacket] at hp
  cases i with
  | setreg addr width value =>
    obtain rfl : pSetreg addr width value = p := Option.some.inj hp
    rw [decodePacketRow_of_hdrSetreg rfl] at h
    split at h
    · cases h
    · next hwidth => exact Bool.eq_true_of_not_eq_false hwidth
  | downloadDlblk addr len =>
    obtain rfl : pDlblk addr len = p := Option.some.inj hp
    rw [decodePacketRow_of_blockHeader rfl (show (0 : Byte) ≠ endFinal by decide)] at h
    split at h
    · cases h
    split at h
    · cases h
    · next hlen => simpa [Instr.wellFormed, pDlblk, Nat.pos_iff_ne_zero, Nat.one_le_iff_ne_zero] using hlen
  | sync | run | runHshake => rfl
  | _ => cases hp

end

end Sys2Proof.Machine
end

section
/-! The decoder and the encoder of the three formats (R86, R87, R89 to R91, R93). -/

namespace Sys2Proof.Machine

/-- Settles O7: by format; the bytes of SYNC and RUN.HSHAKE are told apart by the exchange. -/
theorem rowsDecodeBack : Obligations.RowsDecodeBack := by
  unfold Obligations.RowsDecodeBack
  intro cfg i hwf
  obtain ⟨p, hp⟩ | ⟨w, hw⟩ | hcommand := row_cases i
  · rw [encode_of_packetOf cfg hp]
    exact decodePacketRow_encodePacket cfg _ hp hwf (by rintro rfl; rfl) (by rintro rfl; rfl)
  · rw [encode_of_wordOfRow cfg hw]
    exact decodeResponseRow_of_wordOfRow (by rwa [wordOfResponse_responseOfWord])
  · exact decode_encode_of_isCommandRow cfg _ hcommand

/-- Settles O8: the row stands for the packet or word decoded, and encoding that gives the bytes back. -/
theorem acceptedBytesEncodeBack : Obligations.AcceptedBytesEncodeBack := by
  unfold Obligations.AcceptedBytesEncodeBack
  constructor
  · intro cfg handshake b i h
    refine ⟨?_, ?_⟩
    · rw [encode_of_packetOf cfg (packetOf_of_decodePacketRow h), encodePacket_decodePacket]
    · rw [← encodePacket_decodePacket cfg b] at h
      exact wellFormed_of_decodePacketRow h
  · intro cfg r i h
    have hw := wordOfRow_of_decodeResponseRow h
    exact ⟨by rw [encode_of_wordOfRow cfg hw, responseOfWord_wordOfResponse], wellFormed_of_wordOfRow hw⟩

/-- Settles O9: the decoder run on each word. -/
theorem tableWordsDecode : Obligations.TableWordsDecode := by
  unfold Obligations.TableWordsDecode
  decide

/-- Settles O10: each header's checks in their order. -/
theorem packetsOutsideTableRejected : Obligations.PacketsOutsideTableRejected := by
  unfold Obligations.PacketsOutsideTableRejected
  intro cfg handshake p
  refine ⟨decodePacketRow_of_reservedHeader, ?sync, ?badWidth, ?setreg, ?badEnd, ?badLength, ?block, ?run⟩
  case sync =>
    intro h hne
    rw [decodePacketRow_of_hdrSync h, if_neg]
    intro hp
    simp [hp, pSync] at hne
  case badWidth =>
    intro h h8 h16 h32
    rw [decodePacketRow_of_hdrSetreg h, if_pos (by simpa [legalWidth] using ⟨⟨h8, h16⟩, h32⟩)]
  case setreg =>
    intro h hwidth hne
    rw [decodePacketRow_of_hdrSetreg h, if_neg (by simp [legalWidth_of_mem hwidth]), if_neg]
    intro hp
    rw [hp] at hne
    simp [pSetreg] at hne
  case badEnd =>
    intro h h0 hend
    rw [decodePacketRow_of_blockHeader h hend, if_pos h0]
  case badLength =>
    intro h h0 hlen
    rw [decodePacketRow_of_blockHeader h (by simp [h0, endFinal]), if_neg (by simp [h0]), if_pos]
    exact hlen.imp_left (by rintro h; simp [h])
  case block =>
    intro h h0 hpos hle hne
    rw [decodePacketRow_of_blockHeader h (by simp [h0, endFinal]), if_neg (by simp [h0]), if_neg, if_neg]
    · intro hp
      rw [hp] at hne
      simp [pDlblk] at hne
    · have : p.length.toNat ≠ 0 := fun hz => hpos (BitVec.eq_of_toNat_eq hz)
      simp only [blockMax]
      omega
  case run =>
    intro h hend hne
    rw [decodePacketRow_of_runHeader h hend, if_neg]
    intro hp
    rw [hp] at hne
    simp [pRun] at hne

end Sys2Proof.Machine
end

section
/-! The send of a packet row over a channel that accepts, and a word of no row read by a command in progress (R86, R89, R131,
R132, R137, R140, R152). -/

namespace Sys2Proof.Machine

/-! ### Sending -/

/-- TxWrite of what is left of a packet arms the read, where the channel accepts it all (R131, R140). -/
theorem txWrite_rest_accepts {s : State} (hidx : s.txIdx ≤ 16) (hchan : ChannelAccepts (16 - s.txIdx) s) :
    txWrite s = armRead
      { s with
        txq := s.txq ++ s.txbuf.toList.drop s.txIdx, txIdx := 16, txReplies := s.txReplies.drop (16 - s.txIdx) } := by
  have hlen : (s.txbuf.toList.drop s.txIdx).length = 16 - s.txIdx := by simp
  have hoffer := txOffer_accepts (s.txbuf.toList.drop s.txIdx) s.txReplies s.txRest (by rwa [hlen])
  simp only [txWrite, hoffer, hlen, Nat.add_sub_cancel' hidx]

/-- Settles O23: a packet row is SEND of its packet, which goes on at `sendFrom`. -/
theorem packetRowsSendTheirBytes : Obligations.PacketRowsSendTheirBytes := by
  unfold Obligations.PacketRowsSendTheirBytes
  intro i p s hp hidx hchan
  rw [exec_of_packetOf hp, sendPacket, txWrite_rest_accepts hidx hchan]
  rfl

/-! ### A word of no row -/

/-- A reading engine with the rest of its word waiting takes exactly that and goes on with the word (R132, R137). -/
theorem step_completes {s t : State} {r : Vector Byte 4} (hsched : s.sched = []) (hphase : s.phase = .rxWord)
    (hidx : s.rxIdx ≤ 3) (hr : r.toList = s.rxbuf.toList.take s.rxIdx ++ s.rxq.take (4 - s.rxIdx))
    (h : afterWord (wordOfResponse s.cfg r) (s.wordTaken r (s.rxq.drop (4 - s.rxIdx))) = t) : step s = .next t := by
  obtain ⟨hlen, hbytes⟩ := readyBytes_eq (s := { s with progValid := false }) hidx hr
  have hready : wordReady { s with progValid := false } = true := by simp [wordReady, hphase, hlen]
  rw [step_engine hsched (.inl (hphase.trans_ne nofun)), engineTurn_rxWord (s := { s with progValid := false }) hphase,
    if_pos hready, hbytes, receive, if_pos hphase, ← h]
  rfl

/-- A word of no row is a mismatch in every command but SETREG, in either exchange (R137, R151, R153, R171). -/
theorem afterWord_of_no_row {s : State} {w : Word} (hw : ∀ i, wordOfRow i ≠ some w) (hop : s.lat.op.toNat < 4)
    (hset : s.lat.op ≠ opSetreg) : afterWord w s = complete .protocolMismatch false 1 { s with obs0 := w } := by
  have hsync : w ≠ magicSync := fun h => hw .respSyncOk (congrArg some h.symm)
  have hack : w ≠ magicAck := fun h => hw .respAck (congrArg some h.symm)
  have hrun : ¬(w = magicRunA ∨ w = magicRunB) :=
    not_or.2 ⟨fun h => hw .respRunA (congrArg some h.symm), fun h => hw .respRunB (congrArg some h.symm)⟩
  obtain ⟨-, h⟩ | ⟨h, -⟩ | ⟨-, h⟩ | ⟨-, h⟩ | ⟨h, -⟩ := afterWord_cases w s
  · rw [h, syncWord, if_neg hsync]
  · exact absurd h hset
  · rw [h, downloadWord, if_neg hack]
  · rw [h, runWord, if_neg hack, if_neg hrun, ite_self]
  · omega

/-- A command has two exchanges at most (R23). -/
theorem step_zero_or_one (s : State) : s.step = 0 ∨ s.step = 1 := by
  generalize s.step = n
  revert n
  decide

/-- Settles O32: the word completes the read, and equals none of the words a command compares it with. -/
theorem unlistedWordsAreMismatches : Obligations.UnlistedWordsAreMismatches := by
  unfold Obligations.UnlistedWordsAreMismatches
  intro s r hsched hphase hidx hr hrow hop
  have hw := wordOfRow_ne_of_notAResponse hrow
  have hack2 : ¬(s.obs0 = magicAck ∧ wordOfResponse s.cfg r = magicAck2) :=
    fun h => hw .respAck2 (congrArg some h.2.symm)
  by_cases hset : s.lat.op = opSetreg
  · obtain hstep | hstep := step_zero_or_one s
    · refine ⟨_, step_completes hsched hphase hidx hr (afterWord_setreg_first _ hset hstep), ?_⟩
      simp [hstep, hset, opSetreg]
    · refine ⟨_, step_completes hsched hphase hidx hr (afterWord_setreg_second _ hset hstep), ?_⟩
      simp [hstep, hset, hack2, resObs1, opSetreg]
  · refine ⟨_, step_completes hsched hphase hidx hr (afterWord_of_no_row hw hop hset), ?_⟩
    have hother : ¬s.lat.op = 1#3 := hset
    simp [hother, resObs0]

end Sys2Proof.Machine
end

section
/-! DOWNLOAD of an image of any size (R170 to R174): one block takes the machine from one test of the loop to the next, and the
run of the command is an induction on the number of blocks. -/

namespace Sys2Proof.Machine

/-! ### The numbers of a DOWNLOAD (R171, R172) -/

/-- Only an empty image has no block. -/
theorem blockCount_eq_zero {n : Nat} : blockCount n = 0 ↔ n = 0 := by
  unfold blockCount
  omega

/-- A block takes one from the number of blocks. -/
theorem blockCount_of_pos {n : Nat} (h : 0 < n) : blockCount n = blockCount (n - 4096) + 1 := by
  unfold blockCount
  omega

/-- What a block header announces of an image with `rest` bytes to go. -/
theorem blockLen_ofNat {off rest : Nat} (h : off + rest < 2 ^ 32) :
    blockLen (BitVec.ofNat 32 (off + rest)) (BitVec.ofNat 32 off) = min 4096 rest := by
  rw [blockLen, BitVec.toNat_ofNat, BitVec.toNat_ofNat, Nat.mod_eq_of_lt h, Nat.mod_eq_of_lt (by omega),
    Nat.add_sub_cancel_left]
  rfl

theorem downloadStream_nil (cfg : Config) (base : Word) (fuel off : Nat) : downloadStream cfg base fuel off [] = [] := by
  cases fuel <;> rfl

/-- The bytes of a block's header and payload, and then those of the blocks after it. -/
theorem downloadStream_succ (cfg : Config) (base : Word) (fuel off : Nat) {image : List Byte} (h : image ≠ []) :
    downloadStream cfg base (fuel + 1) off image =
      (encodePacket cfg (pDlblk (base + BitVec.ofNat 32 off) (BitVec.ofNat 32 (min 4096 image.length)))).toList ++
      image.take 4096 ++
      downloadStream cfg base fuel (off + min 4096 image.length) (image.drop 4096) := by
  rw [downloadStream, if_neg (by simpa using h)]
  congr 1
  obtain hlt | hle := Nat.lt_or_ge 4096 image.length
  · rw [Nat.min_eq_left hlt.le]
  · rw [List.drop_eq_nil_of_le hle, downloadStream_nil, downloadStream_nil]

/-! ### One block -/

/-- A DOWNLOAD at the test of its loop: `off` bytes of the image are out and `rest` waits in `plq`, before `extra`, as do in
`rxq` the acks of the blocks still to come, before `q`; nothing else moves, and the channel accepts. -/
structure AtLoop (cfg : Config) (base : Word) (extra q : List Byte) (off : Nat) (rest : List Byte) (s : State) : Prop where
  config : s.cfg = cfg
  sched : s.sched = []
  replies : s.txReplies = []
  channel : s.txRest = .accept
  op : s.lat.op = opDownload
  addr : s.lat.addr = base
  dlBase : s.dlBase = base
  offset : s.dlOffset = BitVec.ofNat 32 off
  total : s.dlTotal = BitVec.ofNat 32 (off + rest.length)
  bound : off + rest.length < 2 ^ 32
  source : s.plq = rest ++ extra
  acks : s.rxq = (List.replicate (blockCount rest.length) (responseOfWord cfg magicAck).toList).flatten ++ q

/-- The progress report of the block that has just ended (R173). -/
structure Reports (s : State) : Prop where
  valid : s.progValid = true
  offset : s.progOffset = s.dlOffset
  total : s.progTotal = s.dlTotal

/-- A channel that accepts from now on accepts any number of bytes. -/
theorem channelAccepts_of_open {s : State} (hreplies : s.txReplies = []) (hchan : s.txRest = .accept) (n : Nat) :
    ChannelAccepts n s := by
  intro k _
  rw [hreplies, hchan]
  rfl

/-- The ack of a block header begins its payload (R171). -/
theorem afterWord_download_ack {s : State} {w : Word} (hw : w = magicAck) (h : s.lat.op = opDownload) :
    afterWord w s = { s with obs0 := magicAck, phase := .txPay, payIdx := 0 } := by
  simp [afterWord, downloadWord, h, hw, opSync, opSetreg, opDownload]

/-- A payload that is there and that the channel accepts ends its block (R171). -/
theorem payTurn_accepts {s : State} (hidx : s.payIdx = 0) (hreplies : s.txReplies = []) (hchan : s.txRest = .accept)
    (hplq : s.blkLen ≤ s.plq.length) :
    payTurn s = finishBlock
      { s with txq := s.txq ++ s.plq.take s.blkLen, payIdx := s.blkLen, plq := s.plq.drop s.blkLen } := by
  have hoffer : payOffer s = { sent := s.plq.take s.blkLen, replies := [], how := .done } := by
    rw [payOffer, hidx, hreplies, Nat.sub_zero, txOffer_accepts _ _ _ (fun k _ => by simpa using hchan), List.drop_nil]
  rw [payTurn_of_block (by rw [hoffer]) (by omega), payAdvance, hoffer]
  simp [hidx, hplq, hreplies]

/-- A step in the payload (R171). -/
theorem step_pays {s : State} (hsched : s.sched = []) (hphase : s.phase = .txPay) :
    step s = .next (payTurn { s with progValid := false }) := by
  rw [step_engine hsched (.inl (hphase.trans_ne nofun)), engineTurn_txPay (s := { s with progValid := false }) hphase]

/-- The header of the next block, as it goes out (R171). -/
def State.nextHeader (s : State) : Vector Byte 16 :=
  encodePacket s.cfg
    (pDlblk (blockAddr s.dlBase s.dlOffset) (BitVec.ofNat 32 (blockLen s.dlTotal s.dlOffset)))

/-- The state in which the payload of a block begins: its header is out, its ack is read, and `q` is left of `rxq` (R171). -/
def State.payloadBegun (q : List Byte) (s : State) : State :=
  { s with
    blkLen := blockLen s.dlTotal s.dlOffset, res := { s.res with addr := blockAddr s.dlBase s.dlOffset }
    txbuf := s.nextHeader, txIdx := 16, txq := s.txq ++ s.nextHeader.toList, txReplies := s.txReplies.drop 16
    rxq := q, rxIdx := 4, rxbuf := responseOfWord s.cfg magicAck, guardCnt := s.cfg.timeoutTicks, obs0 := magicAck
    phase := .txPay, payIdx := 0, progValid := false }

/-- The state after the payload, at the next test of the loop (R171, R173). -/
def State.blockDone (q : List Byte) (s : State) : State :=
  let n := blockLen s.dlTotal s.dlOffset
  { s.payloadBegun q with
    txq := s.txq ++ s.nextHeader.toList ++ s.plq.take n, payIdx := n, plq := s.plq.drop n
    dlOffset := s.dlOffset + BitVec.ofNat 32 n
    progValid := true, progOffset := s.dlOffset + BitVec.ofNat 32 n, progTotal := s.dlTotal }

/-- What is left of `rxq` once the next block's ack is read. -/
abbrev acksAfter (cfg : Config) (q rest : List Byte) : List Byte :=
  (List.replicate (blockCount (rest.drop 4096).length) (responseOfWord cfg magicAck).toList).flatten ++ q

section

variable {cfg : Config} {base : Word} {extra q : List Byte} {off : Nat} {rest : List Byte} {s : State}

/-- The next block's length, while there is one. -/
theorem AtLoop.blockLen_eq (h : AtLoop cfg base extra q off rest s) :
    blockLen s.dlTotal s.dlOffset = min 4096 rest.length := by
  rw [h.total, h.offset, blockLen_ofNat h.bound]

theorem AtLoop.rxq_eq (h : AtLoop cfg base extra q off rest s) (hrest : rest ≠ []) :
    s.rxq = (responseOfWord s.cfg magicAck).toList ++ acksAfter s.cfg q rest := by
  rw [h.acks, blockCount_of_pos (List.length_pos_iff.2 hrest), List.replicate_succ, List.flatten_cons,
    List.append_assoc, acksAfter, List.length_drop, h.config]

/-- The next block's payload is at the front of `plq`. -/
theorem AtLoop.plq_eq (h : AtLoop cfg base extra q off rest s) :
    s.plq.take (min 4096 rest.length) = rest.take 4096 ∧ s.plq.drop (min 4096 rest.length) = rest.drop 4096 ++ extra := by
  have hplq : s.plq = rest.take 4096 ++ (rest.drop 4096 ++ extra) := by
    rw [h.source, ← List.append_assoc, List.take_append_drop]
  rw [hplq]
  exact ⟨List.take_left' List.length_take, List.drop_left' List.length_take⟩

/-- The loop goes on while there is something of the image to send (R170). -/
theorem AtLoop.more (h : AtLoop cfg base extra q off rest s) : s.dlOffset.toNat < s.dlTotal.toNat ↔ rest ≠ [] := by
  have hbound := h.bound
  rw [h.offset, h.total, BitVec.toNat_ofNat, BitVec.toNat_ofNat, ← List.length_pos_iff]
  omega

/-- The header of a block goes out and its ack is read in two steps. -/
theorem run_header (h : AtLoop cfg base extra q off rest s) (hrest : rest ≠ []) (k : Nat) :
    Host.Core.run Sys2Proof.core (k + 2) (beginBlock s) =
      Host.Core.run Sys2Proof.core k (s.payloadBegun (acksAfter s.cfg q rest)) :=
  run_exchange (s := beginBlock s) k h.sched rfl rfl (channelAccepts_of_open h.replies h.channel 16)
    (h.rxq_eq hrest) (afterWord_download_ack (wordOfResponse_responseOfWord _ _) h.op)

/-- The payload of a block goes out in one step. -/
theorem step_payload (h : AtLoop cfg base extra q off rest s) (q' : List Byte) :
    step (s.payloadBegun q') = .next (downloadLoop 1 (s.blockDone q')) := by
  have hplq : blockLen s.dlTotal s.dlOffset ≤ s.plq.length := by
    rw [h.blockLen_eq, h.source, List.length_append]
    omega
  have hreplies : s.txReplies.drop 16 = [] := by rw [h.replies, List.drop_nil]
  rw [step_pays (s := s.payloadBegun q') h.sched rfl,
    payTurn_accepts (s := { s.payloadBegun q' with progValid := false }) rfl hreplies h.channel hplq]
  rfl

/-- A block takes the machine to the next test of the loop in three steps. -/
theorem run_block (h : AtLoop cfg base extra q off rest s) (hrest : rest ≠ []) (n k : Nat) :
    Host.Core.run Sys2Proof.core (k + 3) (downloadLoop n s) =
      Host.Core.run Sys2Proof.core k (downloadLoop 1 (s.blockDone (acksAfter s.cfg q rest))) := by
  rw [downloadLoop, if_pos (h.more.2 hrest), run_header h hrest (k + 1), run_succ k _ _ (step_payload h _)]

/-- There it has one block less to send. -/
theorem AtLoop.blockDone (h : AtLoop cfg base extra q off rest s) :
    AtLoop cfg base extra q (off + min 4096 rest.length) (rest.drop 4096) (s.blockDone (acksAfter s.cfg q rest)) := by
  have hsum : off + min 4096 rest.length + (rest.drop 4096).length = off + rest.length := by
    rw [List.length_drop]
    omega
  exact
    { config := h.config
      sched := h.sched
      replies := by simp [State.blockDone, State.payloadBegun, h.replies]
      channel := h.channel
      op := h.op
      addr := h.addr
      dlBase := h.dlBase
      offset := by
        change s.dlOffset + BitVec.ofNat 32 (blockLen s.dlTotal s.dlOffset) = _
        rw [h.blockLen_eq, h.offset, BitVec.ofNat_add]
      total := by rw [hsum]; exact h.total
      bound := by rw [hsum]; exact h.bound
      source := by
        change s.plq.drop (blockLen s.dlTotal s.dlOffset) = _
        rw [h.blockLen_eq, h.plq_eq.2]
      acks := by rw [← h.config]; rfl }

/-- It has sent that block's header and payload. -/
theorem AtLoop.blockDone_txq (h : AtLoop cfg base extra q off rest s) :
    (s.blockDone (acksAfter s.cfg q rest)).txq = s.txq ++
      ((encodePacket cfg (pDlblk (base + BitVec.ofNat 32 off) (BitVec.ofNat 32 (min 4096 rest.length)))).toList ++
        rest.take 4096) := by
  rw [State.blockDone, State.nextHeader, h.blockLen_eq, h.plq_eq.1, h.config, h.dlBase, h.offset, List.append_assoc]
  rfl

theorem reports_blockDone (s : State) (q : List Byte) : Reports (s.blockDone q) := ⟨rfl, rfl, rfl⟩

end

/-! ### The loop -/

/-- The run from a test of the loop to the end of DOWNLOAD, by induction on the blocks still to send. -/
theorem run_downloadLoop {cfg : Config} {base : Word} {extra q : List Byte} (blocks : Nat) :
    ∀ {off : Nat} {rest : List Byte} {s : State} (n : Nat), blockCount rest.length = blocks →
      AtLoop cfg base extra q off rest s →
      ∃ k m u, Host.Core.run Sys2Proof.core k (downloadLoop n s) = .next (finishDownload m u) ∧
        AtLoop cfg base extra q (off + rest.length) [] u ∧ ((rest = [] → Reports s) → Reports u) ∧
        u.txq = s.txq ++ downloadStream cfg base blocks off rest := by
  induction blocks with
  | zero =>
    intro off rest s n hblocks h
    obtain rfl : rest = [] := List.length_eq_zero_iff.1 (blockCount_eq_zero.1 hblocks)
    refine ⟨0, n, s, ?_, h, fun hr => hr rfl, by simp [downloadStream]⟩
    rw [downloadLoop, if_neg (by simp [h.more])]
    rfl
  | succ blocks ih =>
    intro off rest s n hblocks h
    have hrest : rest ≠ [] := by
      rintro rfl
      cases hblocks
    rw [blockCount_of_pos (List.length_pos_iff.2 hrest), Nat.succ_inj, ← List.length_drop] at hblocks
    obtain ⟨k, m, u, hrun, hu, hreports, htxq⟩ := ih 1 hblocks h.blockDone
    refine ⟨k + 3, m, u, (run_block h hrest n k).trans hrun, ?_, fun _ => hreports fun _ => reports_blockDone _ _, ?_⟩
    · rwa [List.length_drop, show off + min 4096 rest.length + (rest.length - 4096) = off + rest.length by omega] at hu
    · rw [htxq, h.blockDone_txq, downloadStream_succ _ _ _ _ hrest]
      simp only [List.append_assoc]

/-! ### The command -/

/-- The state in which an accepted DOWNLOAD enters its loop (R170). -/
def State.loopEntered (s : State) : State :=
  { s with dlBase := s.lat.addr, dlTotal := s.lat.len, dlOffset := 0, res := { s.res with addr := s.lat.addr } }

/-- DOWNLOAD with a source passes its checks on a synced engine and enters its loop (R150, R170). -/
theorem exec_presented_download {s : State} (hphase : s.phase = .idle) (hop : s.cmd.op = opDownload)
    (hsynced : s.synced = true) (havail : s.plAvail = true) :
    exec (decodeCommandRow s.cmd) s = .next (downloadLoop 0 (accept s.cmd s).loopEntered) := by
  have hrow : decodeCommandRow s.cmd = .cmdDownload s.cmd.addr s.cmd.len := by
    simp [decodeCommandRow, hop, opSync, opSetreg, opDownload]
  rw [hrow, exec_cmdDownload_idle hphase]
  simp only [latched_eq hop, whenSynced_accept hsynced, accept_plAvail, havail, if_true]
  rfl

/-- Settles O58: acceptance, and the run of the loop from offset 0. -/
theorem downloadCommandRuns : Obligations.DownloadCommandRuns := by
  unfold Obligations.DownloadCommandRuns
  intro s image extra q hsched hphase hreq hop hsynced havail hreplies hchan hbound hlen hplq hrxq
  have hentered : AtLoop s.cfg s.cmd.addr extra q 0 image (accept s.cmd { s with progValid := false }).loopEntered :=
    { config := rfl, sched := hsched, replies := hreplies, channel := hchan, op := hop, addr := rfl, dlBase := rfl
      offset := rfl, total := by rw [Nat.zero_add]; exact hlen, bound := by omega, source := hplq, acks := hrxq }
  obtain ⟨k, m, u, hrun, hu, hreports, htxq⟩ := run_downloadLoop _ 0 rfl hentered
  have haccepted := run_acceptance k hsched hphase hreq
    (exec_presented_download (s := { s with progValid := false }) hphase hop hsynced havail)
  have htotal : u.dlTotal = s.cmd.len := by simpa [hlen] using hu.total
  have hoffset : u.dlOffset = s.cmd.len := by simpa [hlen] using hu.offset
  refine ⟨k + 1, _, haccepted.trans hrun, rfl, rfl, rfl, ?_, rfl, hu.addr, htxq, hu.source, hu.acks, fun himage => ?_⟩
  · simp [finishDownload, resOffset, hu.op, hoffset]
  · obtain ⟨hvalid, hprog, hprogTotal⟩ := hreports (absurd · himage)
    exact ⟨hvalid, hprog.trans hoffset, hprogTotal.trans htotal⟩

end Sys2Proof.Machine
end

section
/-! The codec's pure functions (40_codec.md R110 to R115). -/

namespace Sys2Proof.Machine

/-! ### SWAP32 (R110) -/

/-- SWAP32 moves the four bytes to their mirrored places, so doing it again moves them back. -/
@[simp] theorem swap32_swap32 (v : Word) : swap32 (swap32 v) = v := by
  rw [swap32, swap32, Laws.byte0_wordOf, Laws.byte1_wordOf, Laws.byte2_wordOf, Laws.byte3_wordOf, Laws.wordOf_bytes]

theorem swap32_of_palindrome {v : Word} (houter : byte3 v = byte0 v) (hinner : byte2 v = byte1 v) : swap32 v = v :=
  calc swap32 v = wordOf (byte3 v) (byte2 v) (byte1 v) (byte0 v) := by rw [swap32, houter, hinner]
    _ = v := Laws.wordOf_bytes v

/-! ### ENCODE and DECODE (R111, R112) -/

/-- HDR_LSB_FIRST orders the header's two bytes and nothing else (R53, R111). -/
theorem encodePacket_order_irrelevant {p : Packet} (h : p.header.extractLsb' 0 8 = p.header.extractLsb' 8 8)
    (cfg : Config) (order : Bool) : encodePacket { cfg with hdrLsbFirst := order } p = encodePacket cfg p := by
  simp only [encodePacket, h, ite_self]

/-- DECODE of bytes whose header bytes are equal does not look at HDR_LSB_FIRST (R53, R112). -/
theorem decodePacket_order_irrelevant {b : Vector Byte 16} (h : b[0] = b[1]) (cfg : Config) (order : Bool) :
    decodePacket { cfg with hdrLsbFirst := order } b = decodePacket cfg b := by
  simp only [decodePacket, h, ite_self]

/-! ### CLASSIFY (R114) -/

theorem legalWidth_eq_decide (width : Byte) : legalWidth width = decide (width = 8 ∨ width = 16 ∨ width = 32) := by
  rw [Bool.eq_iff_iff, decide_eq_true_iff]
  simp [legalWidth, or_assoc]

/-! ### WORD and WORD_BYTES (R115) -/

/-- A word determines its four bytes. -/
theorem wordOf_inj {a b c d a' b' c' d' : Byte} :
    wordOf a b c d = wordOf a' b' c' d' ↔ a = a' ∧ b = b' ∧ c = c' ∧ d = d' := by
  constructor
  · intro h
    exact ⟨by simpa using congrArg byte3 h, by simpa using congrArg byte2 h,
      by simpa using congrArg byte1 h, by simpa using congrArg byte0 h⟩
  · rintro ⟨rfl, rfl, rfl, rfl⟩
    rfl

/-- WORD_BYTES gives the one string of bytes that WORD reads as the word. -/
theorem wordOfResponse_eq_iff (cfg : Config) (r : Vector Byte 4) (w : Word) :
    wordOfResponse cfg r = w ↔ r = responseOfWord cfg w := by
  constructor
  · rintro rfl
    exact (responseOfWord_wordOfResponse cfg r).symm
  · rintro rfl
    exact wordOfResponse_responseOfWord cfg w

/-- The two orders read mirrored strings, so they agree exactly on palindromes. -/
theorem wordOfResponse_orders_agree_iff (cfg : Config) (r : Vector Byte 4) :
    wordOfResponse { cfg with respLsbFirst := true } r = wordOfResponse { cfg with respLsbFirst := false } r ↔
      r[0] = r[3] ∧ r[1] = r[2] := by
  show wordOf r[3] r[2] r[1] r[0] = wordOf r[0] r[1] r[2] r[3] ↔ _
  rw [wordOf_inj]
  constructor
  · rintro ⟨-, -, hinner, houter⟩
    exact ⟨houter, hinner⟩
  · rintro ⟨houter, hinner⟩
    exact ⟨houter.symm, hinner.symm, hinner, houter⟩

/-! ### The statements -/

/-- Settles O4: the header's two orders are each other's inverse, and a word and its four bytes determine each other. -/
theorem encodeDecodeInverse : Obligations.EncodeDecodeInverse := by
  unfold Obligations.EncodeDecodeInverse
  exact ⟨decodePacket_encodePacket, encodePacket_decodePacket⟩

/-- Settles O1: `swap32` is the mirrored bytes by definition. -/
theorem swap32ReversesBytes : Obligations.Swap32ReversesBytes := by
  unfold Obligations.Swap32ReversesBytes
  refine ⟨fun v => ⟨rfl, swap32_swap32 v, swap32_of_palindrome⟩, ?_⟩
  decide

/-- Settles O2: by the header's order; the three headers have two equal bytes. -/
theorem encodeLaysOutFields : Obligations.EncodeLaysOutFields := by
  unfold Obligations.EncodeLaysOutFields
  refine ⟨?layout, ?headers, ?sample⟩
  case layout =>
    intro cfg p
    cases horder : cfg.hdrLsbFirst <;> simp only [encodePacket, horder] <;> rfl
  case headers =>
    rintro cfg p order (h | h | h) <;> exact encodePacket_order_irrelevant (by rw [h]; rfl) cfg order
  case sample =>
    intro cfg
    rw [← encodePacket_order_irrelevant rfl cfg true]
    rfl

/-- Settles O3: each field is read as the model defines it; the example's header has two equal bytes. -/
theorem decodeReadsFields : Obligations.DecodeReadsFields := by
  unfold Obligations.DecodeReadsFields
  refine ⟨fun cfg b => ⟨rfl, rfl, rfl, rfl, rfl, rfl⟩, fun cfg => ?_⟩
  rw [← decodePacket_order_irrelevant rfl cfg true]
  rfl

/-- Settles O5: the flag `bad_width` is the negation of the three legal widths. -/
theorem classifyByHeaderAndEnd : Obligations.ClassifyByHeaderAndEnd := by
  unfold Obligations.ClassifyByHeaderAndEnd
  refine ⟨fun p => ?_, fun cfg => ?_⟩
  · rw [classify, legalWidth_eq_decide, ← decide_not]
    rfl
  · rw [← decodePacket_order_irrelevant rfl cfg true]
    rfl

/-- Settles O6: WORD is injective on the four bytes under either order. -/
theorem responseWordAndItsBytes : Obligations.ResponseWordAndItsBytes := by
  unfold Obligations.ResponseWordAndItsBytes
  refine ⟨fun cfg r => ⟨rfl, wordOfResponse_eq_iff cfg r, wordOfResponse_orders_agree_iff cfg r⟩, ?_⟩
  intro cfg horder
  rw [wordOfResponse, if_pos horder]
  rfl

end Sys2Proof.Machine
end

section
/-! SUPPORT. What completion writes into the result record, by the command that ends (R154, R211, R221). -/

namespace Sys2Proof.Machine

/-- SETREG's `res_addr` is its own address (R221). -/
theorem resAddr_of_setreg {s : State} (h : s.lat.op = opSetreg) : resAddr s = s.lat.addr := by
  rw [resAddr, if_pos h]

/-- That of DOWNLOAD and of RUN is the block's address and the target, written on the way (R221). -/
theorem resAddr_of_download_or_run {s : State} (h : s.lat.op = opDownload ∨ s.lat.op = opRun) :
    resAddr s = s.res.addr := by
  have hset : s.lat.op ≠ opSetreg := by obtain h | h := h <;> (rw [h]; decide)
  rw [resAddr, if_neg hset, if_pos h]

/-- DOWNLOAD's `res_offset` is the bytes of its completed blocks (R221). -/
theorem resOffset_of_download {s : State} (h : s.lat.op = opDownload) : resOffset s = s.dlOffset := by
  rw [resOffset, if_pos h]

/-- That of every other command is 0 (R221). -/
theorem resOffset_of_not_download {s : State} (h : s.lat.op ≠ opDownload) : resOffset s = 0 := by
  rw [resOffset, if_neg h]

/-- Only the second read of a SETREG has a whole word behind it (R211). -/
theorem wordsRead_eq (s : State) : wordsRead s = if s.lat.op = opSetreg ∧ s.step = 1 then 1 else 0 := by
  obtain hstep | hstep := step_zero_or_one s <;> simp [wordsRead, hstep]

end Sys2Proof.Machine
end

section
/-! A packet row over a channel that stops taking its bytes, with `tx_err` or in silence (R140, R216, R252). -/

namespace Sys2Proof.Machine

/-- The state in which SEND of `p` begins, or goes on (R140, log 16). -/
def State.sendBegun (p : Packet) (s : State) : State :=
  { s with txbuf := encodePacket s.cfg p, txIdx := sendFrom s, phase := .txHdr }

/-- A packet row is TxWrite of its packet (R86, R140). -/
theorem exec_of_packetOf_txWrite {i : Instr} {p : Packet} {s t : State} (hp : packetOf i = some p)
    (h : txWrite (s.sendBegun p) = t) : exec i s = .next t :=
  h ▸ exec_of_packetOf hp s

/-- The state in which the channel stops: it has taken `m` more bytes of the packet, and its answer to the next is used up
(R140). -/
def State.partSent (m : Nat) (s : State) : State :=
  { s with
    txq := s.txq ++ (s.txbuf.toList.drop s.txIdx).take m, txIdx := s.txIdx + m, txReplies := s.txReplies.drop (m + 1) }

/-- TxWrite where the channel signals `tx_err` after `m` bytes (R216). -/
theorem txWrite_error {s : State} {m : Nat} (hm : m < 16 - s.txIdx) (hchan : ChannelAccepts m s)
    (hanswer : channelAnswer m s = .error) : txWrite s = complete .transportError false 0 (s.partSent m) := by
  have hlen : (s.txbuf.toList.drop s.txIdx).length = 16 - s.txIdx := by simp
  have hoffer := txOffer_error _ s.txReplies s.txRest m (hlen ▸ hm) hchan hanswer
  simp only [txWrite, hoffer, List.length_take, hlen, Nat.min_eq_left hm.le, State.partSent]

/-- TxWrite where the channel falls silent after `m` bytes (R252). -/
theorem txWrite_stall {s : State} {m : Nat} (hm : m < 16 - s.txIdx) (hchan : ChannelAccepts m s)
    (hanswer : channelAnswer m s = .stall) : txWrite s = s.partSent m := by
  have hlen : (s.txbuf.toList.drop s.txIdx).length = 16 - s.txIdx := by simp
  have hoffer := txOffer_stall _ s.txReplies s.txRest m (hlen ▸ hm) hchan hanswer
  simp only [txWrite, hoffer, List.length_take, hlen, Nat.min_eq_left hm.le, State.partSent]

/-- Settles O24: SEND of the row's packet, cut short by `tx_err`. -/
theorem packetRowsTransportError : Obligations.PacketRowsTransportError := by
  unfold Obligations.PacketRowsTransportError
  intro i p s m hp hm hchan hanswer
  exact ⟨_, exec_of_packetOf_txWrite hp (txWrite_error hm hchan hanswer), rfl, rfl, rfl, rfl, rfl, resAddr_of_setreg,
    resAddr_of_download_or_run, rfl⟩

/-- Settles O25: SEND of the row's packet, cut short by silence. -/
theorem packetRowsWaitForChannel : Obligations.PacketRowsWaitForChannel := by
  unfold Obligations.PacketRowsWaitForChannel
  intro i p s m hp hm hchan hanswer
  exact exec_of_packetOf_txWrite hp (txWrite_stall hm hchan hanswer)

end Sys2Proof.Machine
end

section
/-! A response row in a read: its word completes the read, and the command in progress decides what follows (R132, R137, R151 to
R153, R171). -/

namespace Sys2Proof.Machine

/-- The state in which the command goes on with the word `w`: the bytes of it not yet taken have left `rxq` (R132). -/
def State.wordRead (w : Word) (s : State) : State :=
  { s with rxq := s.rxq.drop (4 - s.rxIdx), rxIdx := 4, rxbuf := responseOfWord s.cfg w }

/-- A response row in a read is the compare of its word (R89, R132, R137). -/
theorem exec_of_wordOfRow_reading {i : Instr} {w : Word} {s t : State} (hw : wordOfRow i = some w)
    (hphase : s.phase = .rxWord) (h : afterWord w (s.wordRead w) = t) : exec i s = .next t := by
  rw [exec_of_wordOfRow hw, receive, if_pos hphase, wordOfResponse_responseOfWord, ← h]
  rfl

/-- A word that is no ack ends DOWNLOAD at its block's header (R171). -/
theorem afterWord_download_other {s : State} {w : Word} (hw : w ≠ magicAck) (h : s.lat.op = opDownload) :
    afterWord w s = complete .protocolMismatch false 1 { s with obs0 := w } := by
  simp [afterWord, downloadWord, h, hw, opSync, opSetreg, opDownload]

/-- A word that is no ack ends RUN before its handshake (R153). -/
theorem afterWord_run_other {s : State} {w : Word} (hw : w ≠ magicAck) (h : s.lat.op = opRun) (hstep : s.step = 0) :
    afterWord w s = complete .protocolMismatch false 1 { s with obs0 := w } := by
  simp [afterWord, runWord, h, hstep, hw, opSync, opSetreg, opDownload, opRun]

/-- Settles O26: SYNC's compare. -/
theorem responseRowsAnswerSync : Obligations.ResponseRowsAnswerSync := by
  unfold Obligations.ResponseRowsAnswerSync
  intro i w s hw hphase hop
  have hdl : s.lat.op ≠ opDownload := by rw [hop]; decide
  have hsynced : (s.synced || decide (w = magicSync)) = if w = magicSync then true else s.synced := by
    by_cases h : w = magicSync <;> simp [h]
  have hend := afterWord_sync (s := s.wordRead w) w hop
  change _ = complete _ false 1 { s.wordRead w with obs0 := w, synced := s.synced || decide (w = magicSync) } at hend
  rw [hsynced] at hend
  exact ⟨_, exec_of_wordOfRow_reading hw hphase hend, rfl, rfl, rfl, rfl, rfl, rfl, resOffset_of_not_download hdl⟩

/-- Settles O27: the first word of SETREG is compared with nothing yet. -/
theorem responseRowsFirstWordOfSetreg : Obligations.ResponseRowsFirstWordOfSetreg := by
  unfold Obligations.ResponseRowsFirstWordOfSetreg
  intro i w s hw hphase hop hstep
  exact exec_of_wordOfRow_reading hw hphase (afterWord_setreg_first w hop hstep)

/-- Settles O28: SETREG's compare of both words. -/
theorem responseRowsSecondWordOfSetreg : Obligations.ResponseRowsSecondWordOfSetreg := by
  unfold Obligations.ResponseRowsSecondWordOfSetreg
  intro i w s hw hphase hop hstep
  have hdl : s.lat.op ≠ opDownload := by rw [hop]; decide
  exact ⟨_, exec_of_wordOfRow_reading hw hphase (afterWord_setreg_second w hop hstep), rfl, rfl, rfl, hstep, rfl, rfl,
    rfl, resAddr_of_setreg hop, resOffset_of_not_download hdl⟩

/-- Settles O29: the ack opens the payload, and any other word ends DOWNLOAD. -/
theorem responseRowsAnswerBlockHeader : Obligations.ResponseRowsAnswerBlockHeader := by
  unfold Obligations.ResponseRowsAnswerBlockHeader
  intro i w s hw hphase hop
  by_cases hack : w = magicAck
  · have hpayload := exec_of_wordOfRow_reading hw hphase (afterWord_download_ack hack hop)
    exact ⟨_, hpayload, fun _ => by rw [hack]; rfl, absurd hack⟩
  · have hend := exec_of_wordOfRow_reading hw hphase (afterWord_download_other hack hop)
    exact ⟨_, hend, fun h => absurd h hack, fun _ => ⟨rfl, rfl, rfl, rfl, rfl, rfl,
      resAddr_of_download_or_run (.inl hop), resOffset_of_download hop⟩⟩

/-- Settles O30: the ack begins the handshake, and any other word ends RUN. -/
theorem responseRowsAnswerRun : Obligations.ResponseRowsAnswerRun := by
  unfold Obligations.ResponseRowsAnswerRun
  intro i w s hw hphase hop hstep
  have hdl : s.lat.op ≠ opDownload := by rw [hop]; decide
  by_cases hack : w = magicAck
  · have hhandshake := exec_of_wordOfRow_reading hw hphase (afterWord_run_ack hack hop hstep)
    exact ⟨_, hhandshake, fun _ => rfl, absurd hack⟩
  · have hend := exec_of_wordOfRow_reading hw hphase (afterWord_run_other hack hop hstep)
    exact ⟨_, hend, fun h => absurd h hack, fun _ => ⟨rfl, rfl, rfl, hstep, rfl, rfl,
      resAddr_of_download_or_run (.inr hop), resOffset_of_not_download hdl⟩⟩

/-- Settles O31: the compare of the handshake's word. -/
theorem responseRowsAnswerHandshake : Obligations.ResponseRowsAnswerHandshake := by
  unfold Obligations.ResponseRowsAnswerHandshake
  intro i w s hw hphase hop hstep
  have hdl : s.lat.op ≠ opDownload := by rw [hop]; decide
  exact ⟨_, exec_of_wordOfRow_reading hw hphase (afterWord_run_second w hop hstep), rfl, rfl, rfl, hstep, rfl, rfl,
    resAddr_of_download_or_run (.inr hop), resOffset_of_not_download hdl⟩

end Sys2Proof.Machine
end

section
/-! The guarded read (R130 to R135, R141): what there is of an incomplete word is taken, and a tick counts or ends the read. -/

namespace Sys2Proof.Machine

/-! ### An incomplete word (R132) -/

/-- Too few bytes in `rxq` complete no word. -/
theorem wordReady_of_lt {s : State} (h : s.rxIdx + s.rxq.length < 4) : wordReady s = false := by
  simp [wordReady, h]

/-- Enough of them complete the word of a reading engine. -/
theorem wordReady_of_le {s : State} (hphase : s.phase = .rxWord) (h : 4 ≤ s.rxIdx + s.rxq.length) :
    wordReady s = true := by
  simp [wordReady, hphase, h]

/-- The state in which all there is of an incomplete word has been taken. -/
def State.wordPartTaken (s : State) : State :=
  { s with rxq := [], rxIdx := s.rxIdx + s.rxq.length, rxbuf := (takeBytes s.rxq s.rxIdx s.rxbuf).2.2 }

/-- Taking all there is empties `rxq` and writes no register but those of the word. -/
theorem takeAvailable_partial {s : State} (h : s.rxIdx + s.rxq.length < 4) : takeAvailable s = s.wordPartTaken := by
  obtain ⟨hq, hidx⟩ := takeBytes_partial s.rxq s.rxIdx s.rxbuf h
  simp only [takeAvailable, State.wordPartTaken, hq, hidx]

/-- With nothing else to move, a reading engine takes what there is. -/
theorem step_takes {s : State} (hsched : s.sched = []) (hphase : s.phase = .rxWord)
    (hlen : s.rxIdx + s.rxq.length < 4) : step s = .next { s.wordPartTaken with progValid := false } := by
  have hready : wordReady { s with progValid := false } = false := wordReady_of_lt hlen
  rw [step_engine hsched (.inl (hphase.trans_ne nofun)), engineTurn_rxWord (s := { s with progValid := false }) hphase,
    hready, takeAvailable_partial (s := { s with progValid := false }) hlen]
  rfl

/-- Settles O33: ENG's turn takes all there is of the word, a byte event one byte, its last byte or none. -/
theorem partialWordIsTaken : Obligations.PartialWordIsTaken := by
  unfold Obligations.PartialWordIsTaken
  refine ⟨?turn, ?byte, ?last, ?nothing⟩
  case turn =>
    intro s hsched hphase hlen
    exact ⟨_, step_takes hsched hphase hlen, rfl, takeBytes_getElem _ _ _⟩
  case byte =>
    intro s rest c q hsched hphase hidx hrxq
    rw [step_of_sched_cons s _ rest hsched]
    refine ⟨_, byteTurn_cons _ c q hphase hidx hrxq, rfl, fun k hk => ?_⟩
    simp only [Vector.getElem_setIfInBounds, eq_comm]
  case last =>
    intro s rest hsched hphase hidx
    rw [step_of_sched_cons s _ rest hsched, step_of_sched_cons { s with sched := .eng :: rest } _ rest rfl]
    exact byteTurn_last _ hphase hidx.ge
  case nothing =>
    intro s rest hsched hnone
    rw [step_of_sched_cons s _ rest hsched]
    obtain hphase | ⟨hidx, hrxq⟩ := hnone
    · exact byteTurn_of_not_reading _ hphase
    · by_cases hphase : s.phase = .rxWord
      · exact byteTurn_nil _ hphase hidx hrxq
      · exact byteTurn_of_not_reading _ hphase

/-! ### A tick (R133, R134) -/

/-- Where a word is ready a tick is ENG's turn. -/
theorem tickTurn_of_ready {s : State} (h : wordReady s = true) : tickTurn s = engineTurn s := by
  rw [tickTurn, if_pos h]

/-- Where none is, it counts. -/
theorem tickTurn_of_not_ready {s : State} (h : wordReady s = false) : tickTurn s = .next (countTick s) := by
  rw [tickTurn, h, if_neg (by simp)]

/-- Outside a read it has no effect. -/
theorem tickTurn_of_not_reading {s : State} (h : s.phase ≠ .rxWord) : tickTurn s = .next s := by
  rw [tickTurn_of_not_ready (by simp [wordReady, h]), countTick_of_not_reading s h]

/-- The step of a tick that finds the word incomplete. -/
theorem step_counts {s t : State} {rest : List Move} (hsched : s.sched = .tick :: rest)
    (hlen : s.rxIdx + s.rxq.length < 4) (h : countTick { s with progValid := false, sched := rest } = t) :
    step s = .next t := by
  rw [step_of_sched_cons s .tick rest hsched, ← h]
  exact tickTurn_of_not_ready (wordReady_of_lt hlen)

/-- Above 1 the guard counts down and the read goes on. -/
theorem countTick_of_guard_gt_one {s : State} (hphase : s.phase = .rxWord) (hlen : s.rxIdx + s.rxq.length < 4)
    (hguard : 1 < s.guardCnt) : countTick s = { s.wordPartTaken with guardCnt := s.guardCnt - 1 } := by
  have hleft : s.guardCnt - 1 ≠ 0 := by omega
  rw [countTick, if_pos hphase, takeAvailable_partial hlen]
  exact if_neg hleft

/-- A short read is Ok and ignored for a SETREG told to ignore it, and Timeout otherwise (R135, R219). -/
theorem short_eq_complete (s : State) :
    short s = complete (if s.lat.op = opSetreg ∧ s.lat.ign = true then .ok else .timeout)
      (decide (s.lat.op = opSetreg ∧ s.lat.ign = true)) (wordsRead s) s := by
  by_cases hign : s.lat.op = opSetreg ∧ s.lat.ign = true
  · simp only [short, if_pos hign, decide_eq_true hign]
  · simp only [short, if_neg hign, decide_eq_false hign]

/-- At 1 it comes to 0 and the read is short. -/
theorem countTick_of_guard_one {s : State} (hphase : s.phase = .rxWord) (hlen : s.rxIdx + s.rxq.length < 4)
    (hguard : s.guardCnt = 1) :
    countTick s = complete (if s.lat.op = opSetreg ∧ s.lat.ign = true then .ok else .timeout)
      (decide (s.lat.op = opSetreg ∧ s.lat.ign = true)) (wordsRead s) { s.wordPartTaken with guardCnt := 0 } := by
  have hleft : s.guardCnt - 1 = 0 := by omega
  rw [countTick, if_pos hphase, takeAvailable_partial hlen]
  exact (if_pos hleft).trans (short_eq_complete _)

/-- Settles O34: the bytes are taken as in ENG's turn, and one tick is counted. -/
theorem tickCountsGuard : Obligations.TickCountsGuard := by
  unfold Obligations.TickCountsGuard
  intro s rest hsched hphase hlen hguard
  exact ⟨_, step_counts hsched hlen (countTick_of_guard_gt_one hphase hlen hguard), rfl, takeBytes_getElem _ _ _⟩

/-- Settles O35: the read is short, and the result says how many words its exchange read. -/
theorem tickEndsReadShort : Obligations.TickEndsReadShort := by
  unfold Obligations.TickEndsReadShort
  intro s rest hsched hphase hlen hguard
  have hstep := step_counts hsched hlen (countTick_of_guard_one hphase hlen hguard)
  have hwords := wordsRead_eq s
  refine ⟨_, hstep, rfl, rfl, rfl, rfl, ?nobs, fun hsecond => ?obs0, resAddr_of_setreg, resAddr_of_download_or_run, rfl⟩
  case nobs =>
    change BitVec.ofNat 2 (wordsRead s) = _
    rw [hwords, apply_ite (BitVec.ofNat 2)]
    rfl
  case obs0 =>
    have hone : wordsRead s = 1 := hwords.trans (if_pos hsecond)
    change resObs0 (wordsRead s) s = s.obs0
    rw [hone]
    rfl

/-- Settles O36: a tick asks first whether the word is ready. -/
theorem bytesComeBeforeTick : Obligations.BytesComeBeforeTick := by
  unfold Obligations.BytesComeBeforeTick
  refine ⟨fun s rest hsched hphase hlen => ?_, fun s rest hsched hphase => ?_⟩
  · rw [step_of_sched_cons s _ rest hsched, step_of_sched_cons { s with sched := .eng :: rest } _ rest rfl]
    exact tickTurn_of_ready (wordReady_of_le hphase hlen)
  · rw [step_of_sched_cons s _ rest hsched]
    exact tickTurn_of_not_reading hphase

/-! ### Timeout (R139) -/

/-- A command that has ended with Timeout. -/
structure TimedOut (t : State) : Prop where
  idle : t.phase = .idle
  resValid : t.resValid = true
  kind : t.res.kind = .timeout

/-- No word that is read ends a command with Timeout (R137). -/
theorem afterWord_not_timedOut (w : Word) (s : State) : ¬TimedOut (afterWord w s) := by
  apply afterWord_elim w s fun t => ¬TimedOut t
  case setregEnd =>
    rintro k g - hk ⟨-, -, hkind⟩
    obtain rfl | rfl := hk <;> cases hkind
  case other =>
    rintro k - hk ⟨-, -, hkind⟩
    obtain rfl | rfl := hk <;> cases hkind
  case setregFirst | payload => rintro - - ⟨hidle, -, -⟩; cases hidle
  case handshake => rintro - - - ⟨hidle, -, -⟩; cases hidle
  case syncOk | syncBad => rintro - - ⟨-, -, hkind⟩; cases hkind
  case reserved => rintro - ⟨-, -, hkind⟩; cases hkind

/-- Nor does the turn of a reading engine, which takes bytes or completes a word (R132, R137). -/
theorem engineTurn_not_timedOut {s t : State} (hphase : s.phase = .rxWord) (h : engineTurn s = .next t) :
    ¬TimedOut t := by
  rw [engineTurn_rxWord hphase] at h
  cases h
  split
  · rw [receive, if_pos hphase]
    exact afterWord_not_timedOut _ _
  · exact fun ht => nomatch hphase.symm.trans ht.idle

/-- Nor a byte event. -/
theorem byteTurn_not_timedOut {s t : State} (hphase : s.phase = .rxWord) (h : byteTurn s = .next t) : ¬TimedOut t := by
  rw [byteTurn, if_pos hphase] at h
  split at h
  · cases h
    exact fun ht => nomatch hphase.symm.trans ht.idle
  · exact engineTurn_not_timedOut hphase h

/-- A tick does so only where it counts, all the bytes there are taken (R133, R134). -/
theorem tickTurn_timedOut {s t : State} (hphase : s.phase = .rxWord) (h : tickTurn s = .next t) (ht : TimedOut t) :
    s.rxIdx + s.rxq.length < 4 ∧ t.rxq = [] := by
  obtain hlen | hlen := Nat.lt_or_ge (s.rxIdx + s.rxq.length) 4
  · rw [tickTurn_of_not_ready (wordReady_of_lt hlen)] at h
    cases h
    exact ⟨hlen, (congrArg Streams.rxq (countTick_streams hphase)).trans (takeBytes_partial _ _ _ hlen).1⟩
  · rw [tickTurn_of_ready (wordReady_of_le hphase hlen)] at h
    exact absurd ht (engineTurn_not_timedOut hphase h)

/-- Settles O37: of the moves only a tick can end a read with Timeout. -/
theorem timeoutOnlyWhenReceiveEmpty : Obligations.TimeoutOnlyWhenReceiveEmpty := by
  unfold Obligations.TimeoutOnlyWhenReceiveEmpty
  intro s t h hphase hidle hvalid hkind
  have ht : TimedOut t := ⟨hidle, hvalid, hkind⟩
  have kept (hkeep : t.phase = s.phase) : False := nomatch (hkeep.trans hphase).symm.trans hidle
  obtain ⟨-, heng⟩ | ⟨-, hseq⟩ | ⟨m, hhead, heng, hseq, hmove⟩ := step_mover h
  · exact absurd ht (engineTurn_not_timedOut (s := s.atMove) hphase heng)
  · obtain ⟨_, _, _, _, _, _, _, _, _, _, rfl⟩ := seqTurn_frame _ t hseq
    exact (kept rfl).elim
  · cases m with
    | eng => exact absurd rfl heng
    | seq => exact absurd rfl hseq
    | tick => exact ⟨hhead, tickTurn_timedOut (s := s.atMove) hphase hmove ht⟩
    | engByte => exact absurd ht (byteTurn_not_timedOut (s := s.atMove) hphase hmove)
    | reset => cases hmove; cases hvalid
    | devSend | devTake | operands | request | program | channel | source => cases hmove; exact (kept rfl).elim

end Sys2Proof.Machine
end

section
/-! A turn in the payload (R171 to R174): over a channel that accepts it the block ends and the next header is built; a byte
refused ends DOWNLOAD. -/

namespace Sys2Proof.Machine

/-- The state in which the rest of the block's payload is out (R171). -/
def State.payloadSent (s : State) : State :=
  { s with
    txq := s.txq ++ s.plq.take (s.blkLen - s.payIdx), plq := s.plq.drop (s.blkLen - s.payIdx), payIdx := s.blkLen
    txReplies := s.txReplies.drop (s.blkLen - s.payIdx) }

/-- What the block lacks is there, and the channel accepts it all: the block ends (R171). -/
theorem payTurn_rest_accepts {s : State} (hidx : s.payIdx ≤ s.blkLen) (hwant : s.blkLen - s.payIdx ≤ s.plq.length)
    (hchan : ChannelAccepts (s.blkLen - s.payIdx) s) :
    payTurn s = finishBlock s.payloadSent := by
  have hlen : (s.plq.take (s.blkLen - s.payIdx)).length = s.blkLen - s.payIdx := by
    rw [List.length_take, Nat.min_eq_left hwant]
  have hoffer := txOffer_accepts _ s.txReplies s.txRest (hlen.symm ▸ hchan)
  rw [payTurn_of_block (congrArg TxOutcome.how hoffer) hwant]
  simp only [payAdvance, payOffer, hoffer, hlen, Nat.add_sub_cancel' hidx, reduceCtorEq, if_false, State.payloadSent]

/-- The channel signals `tx_err` after `m` bytes: those are sent, and the next has left `plq` too (R216, log 13). -/
theorem payTurn_error {s : State} {m : Nat} (hwant : m < s.blkLen - s.payIdx) (hplq : m < s.plq.length)
    (hchan : ChannelAccepts m s) (hanswer : channelAnswer m s = .error) :
    payTurn s = complete .transportError false 1
      { s with
        txq := s.txq ++ s.plq.take m, plq := s.plq.drop (m + 1), payIdx := s.payIdx + m
        txReplies := s.txReplies.drop (m + 1) } := by
  have hlen : m < (s.plq.take (s.blkLen - s.payIdx)).length := by
    rw [List.length_take]
    omega
  have hoffer := txOffer_error _ s.txReplies s.txRest m hlen hchan hanswer
  rw [List.take_take, Nat.min_eq_left hwant.le] at hoffer
  rw [payTurn_of_error (congrArg TxOutcome.how hoffer)]
  simp only [payAdvance, payOffer, hoffer, List.length_take, Nat.min_eq_left hplq.le, if_true]

/-- While bytes of the image are left, the end of a block begins the next (R171, R173). -/
theorem finishBlock_of_more {s : State}
    (h : (s.dlOffset + BitVec.ofNat 32 s.blkLen).toNat < s.dlTotal.toNat) :
    finishBlock s = beginBlock
      { s with
        dlOffset := s.dlOffset + BitVec.ofNat 32 s.blkLen, progOffset := s.dlOffset + BitVec.ofNat 32 s.blkLen
        progTotal := s.dlTotal, progValid := true } := by
  rw [finishBlock, downloadLoop, if_pos h]

/-- Settles O39: the payload's turn ends the block, and the loop begins the next. -/
theorem payloadThenNextHeader : Obligations.PayloadThenNextHeader := by
  unfold Obligations.PayloadThenNextHeader
  rintro s off hsched hphase hidx hwant hchan rfl hmore
  rw [step_pays hsched hphase, payTurn_rest_accepts (s := { s with progValid := false }) hidx hwant hchan]
  exact congrArg Host.Outcome.next (finishBlock_of_more (s := State.payloadSent _) hmore)

/-- Settles O42: the payload's turn, cut short by `tx_err`. -/
theorem payloadTransportError : Obligations.PayloadTransportError := by
  unfold Obligations.PayloadTransportError
  intro s m hsched hphase hop hwant hplq hchan hanswer
  have hstep := (step_pays hsched hphase).trans
    (congrArg Host.Outcome.next (payTurn_error (s := { s with progValid := false }) hwant hplq hchan hanswer))
  exact ⟨_, hstep, rfl, rfl, rfl, rfl, resAddr_of_download_or_run (.inl hop), resOffset_of_download hop⟩

end Sys2Proof.Machine
end

section
/-! The end of DOWNLOAD (R154, R170, R171): where the test of its loop finds no byte left, after the last block's payload or,
for no bytes at all, at once. -/

namespace Sys2Proof.Machine

/-- Where no byte is left, the loop ends (R170). -/
theorem downloadLoop_of_done {s : State} (n : Nat) (h : s.dlTotal.toNat ≤ s.dlOffset.toNat) :
    downloadLoop n s = finishDownload n s := by
  rw [downloadLoop, if_neg (Nat.not_lt.2 h)]

/-- The end of the last block ends DOWNLOAD (R170, R171, R173). -/
theorem finishBlock_of_last {s : State} (h : s.dlTotal.toNat ≤ (s.dlOffset + BitVec.ofNat 32 s.blkLen).toNat) :
    finishBlock s = finishDownload 1
      { s with
        dlOffset := s.dlOffset + BitVec.ofNat 32 s.blkLen, progOffset := s.dlOffset + BitVec.ofNat 32 s.blkLen
        progTotal := s.dlTotal, progValid := true } :=
  downloadLoop_of_done 1 h

/-- DOWNLOAD of no bytes ends before its first block (R170). -/
theorem startDownload_of_nothing {s : State} (h : s.lat.len = 0) :
    startDownload s = finishDownload 0
      { s with dlBase := s.lat.addr, dlTotal := s.lat.len, dlOffset := 0, res := { s.res with addr := s.lat.addr } } :=
  downloadLoop_of_done 0 (by rw [h])

/-- Settles O40: the payload's turn ends the block, and the loop ends DOWNLOAD. -/
theorem lastPayloadEndsDownload : Obligations.LastPayloadEndsDownload := by
  unfold Obligations.LastPayloadEndsDownload
  rintro s off hsched hphase hop hidx hwant hchan rfl hlast
  have hend := finishBlock_of_last (s := State.payloadSent { s with progValid := false }) hlast
  have hstep := step_pays hsched hphase
  rw [payTurn_rest_accepts (s := { s with progValid := false }) hidx hwant hchan, hend] at hstep
  exact ⟨_, hstep, rfl, rfl, rfl, rfl, rfl, rfl, resAddr_of_download_or_run (.inl hop), resOffset_of_download hop⟩

/-- Settles O14: the loop's first test ends DOWNLOAD. -/
theorem cmdDownloadOfNothingSucceeds : Obligations.CmdDownloadOfNothingSucceeds := by
  unfold Obligations.CmdDownloadOfNothingSucceeds
  intro s addr hphase hsynced hsource
  have hexec := exec_cmdDownload_idle hphase addr 0
  rw [whenSynced_accept hsynced, accept_plAvail, if_pos hsource,
    startDownload_of_nothing (s := accept _ s) rfl] at hexec
  refine ⟨_, hexec, ?frame, rfl, rfl, rfl, rfl, rfl, rfl⟩
  simp only [finishDownload, complete, accept, ← hphase]
  rfl

end Sys2Proof.Machine
end

section
/-! Commands that end at acceptance (R150 steps 2 and 4, R213, R215), and RUN of the sentinel (R153). -/

namespace Sys2Proof.Machine

/-- Settles O17: the width is checked before the session. -/
theorem illegalWidthIsInvalidWidth : Obligations.IllegalWidthIsInvalidWidth := by
  unfold Obligations.IllegalWidthIsInvalidWidth
  intro s addr width value ign hphase h8 h16 h32
  have hwidth : ¬legalWidth width = true := by
    simpa [legalWidth_eq_decide] using ⟨h8, h16, h32⟩
  have hexec := exec_cmdSetreg_idle hphase addr width value ign
  simp only [if_neg hwidth] at hexec
  obtain ⟨t, ht, hframe, hkind, hignored, hstep, hnobs, hoffset⟩ := ends_at_acceptance hphase hexec
  have haddr : t.res.addr = addr := by
    cases hexec.symm.trans ht
    rfl
  exact ⟨t, ht, hframe, hkind, hignored, hstep, hnobs, haddr, hoffset⟩

/-- Settles O20: on a synced engine the source is asked for before the first block. -/
theorem downloadWithoutSourceIsSourceUnavailable : Obligations.DownloadWithoutSourceIsSourceUnavailable := by
  unfold Obligations.DownloadWithoutSourceIsSourceUnavailable
  intro s addr len hphase hsynced hsource
  apply ends_at_acceptance hphase
  rw [exec_cmdDownload_idle hphase, whenSynced_accept hsynced, accept_plAvail, hsource, if_neg Bool.false_ne_true]
  rfl

/-- Settles O54: both operands have the target `last_entry_addr`, and past it only `lat_addr` differs, synced or not. -/
theorem runSentinelIsRunOfLastEntry : Obligations.RunSentinelIsRunOfLastEntry := by
  unfold Obligations.RunSentinelIsRunOfLastEntry
  intro s t hvalid haddr hphase h
  rw [exec_cmdRun_idle hphase (runTarget_of_entry (.inr ⟨rfl, hvalid, rfl⟩))] at h
  rw [exec_cmdRun_idle hphase (runTarget_of_entry (.inl ⟨haddr, rfl⟩))]
  cases h
  cases hsynced : s.synced with
  | true =>
    rw [whenSynced_accept hsynced, whenSynced_accept hsynced]
    rfl
  | false =>
    rw [whenSynced_accept_unsynced hsynced, whenSynced_accept_unsynced hsynced]
    rfl

end Sys2Proof.Machine
end

section
/-! SEQ's turn (R190 to R196): the next action, or the expansion of the next command. -/

namespace Sys2Proof.Machine

/-- SEQ has the turn, and neither a failure nor a command outstanding holds it back (R190, log 2). -/
structure SeqFree (s : State) : Prop where
  sched : s.sched = []
  phase : s.phase = .idle
  request : s.cmdValid = false
  stop : s.seqStop = none
  wait : s.seqWait = false

/-- A free SEQ looks at its actions, and then at its list (R190). -/
theorem SeqFree.step_eq {s : State} (h : SeqFree s) : step s = seqTurn { s with progValid := false } := by
  have hwork : ¬engineHasWork { s with progValid := false } = true := by
    simp [engineHasWork_iff, h.phase, h.request]
  rw [step_of_sched_nil s h.sched, defaultTurn, if_neg hwork]

/-- With an action to do, SEQ does it. -/
theorem SeqFree.step_act {s : State} (h : SeqFree s) {a : SeqAct} {acts : List SeqAct} (hacts : s.seqActs = a :: acts) :
    step s = .next (doAct a { s with progValid := false, seqActs := acts }) := by
  simp only [h.step_eq, seqTurn, h.stop, h.wait, hacts, Option.isSome_none, Bool.false_eq_true, if_false]

/-- With none left, SEQ begins the next command of its list. -/
theorem SeqFree.step_begin {s : State} (h : SeqFree s) {op : SeqOp} {ops : List SeqOp} (hacts : s.seqActs = [])
    (hqueue : s.seqQueue = op :: ops) : step s = beginOp op ops { s with progValid := false } := by
  simp only [h.step_eq, seqTurn, h.stop, h.wait, hacts, hqueue, Option.isSome_none, Bool.false_eq_true, if_false]

/-- SETBAUD below 100 is refused (R193 b). -/
theorem beginOp_setBaud_of_lt {rate : Nat} (h : rate < 100) (ops : List SeqOp) (s : State) :
    beginOp (.setBaud rate) ops s = .refused (.baudRateBelow100 rate) :=
  if_pos h

/-- From 100 on it is expanded (R193). -/
theorem beginOp_setBaud_of_le {rate : Nat} (h : 100 ≤ rate) (ops : List SeqOp) (s : State) :
    beginOp (.setBaud rate) ops s = .next { s with seqQueue := ops, seqActs := expandSetBaud s.cfg rate } :=
  if_neg (Nat.not_lt.2 h)

/-- RUN is preceded by SYNC on an unsynced engine only (R191). -/
theorem expandOp_run (cfg : Config) (synced : Bool) (addr : Option Word) :
    expandOp cfg synced (.run addr) = (if synced then [] else [actSync]) ++ [actRun addr] := by
  cases synced <;> rfl

/-- Settles O60: the command at the head of the list decides its expansion, the action at the head its effect. -/
theorem sequencerExpandsAndActs : Obligations.SequencerExpandsAndActs := by
  unfold Obligations.SequencerExpandsAndActs
  intro s hsched hphase hrequest hstop hwait
  have hfree : SeqFree s := ⟨hsched, hphase, hrequest, hstop, hwait⟩
  refine ⟨fun ops hacts => ?expansions, fun acts => ?actions⟩
  case actions =>
    exact ⟨fun _ => hfree.step_act, fun _ => hfree.step_act, hfree.step_act, fun _ => hfree.step_act⟩
  case expansions =>
    have begins {op : SeqOp} := hfree.step_begin (op := op) (ops := ops) hacts
    refine ⟨fun rate hrate hqueue => ?setBaud, fun rate hrate hqueue => ?setBaudRefused, begins, begins,
      fun _ _ _ => begins, fun _ _ => begins, fun _ => begins, fun addr hqueue => ?run⟩
    case setBaud => exact (begins hqueue).trans (beginOp_setBaud_of_le hrate ops _)
    case setBaudRefused => exact (begins hqueue).trans (beginOp_setBaud_of_lt hrate ops _)
    case run =>
      rw [begins hqueue]
      simp only [beginOp, expandOp_run]
      rfl

end Sys2Proof.Machine
end

section
/-! A source that fails or ends inside a block (R174, R215): what it gave goes out, and DOWNLOAD ends. -/

namespace Sys2Proof.Machine

/-- SRC has failed with less in `plq` than the block lacks: over a channel that accepts it, all of `plq` goes out first
(R174, log 14). -/
theorem payTurn_sourceUnavailable {s : State} (herr : s.plErr = true) (hplq : s.plq.length < s.blkLen - s.payIdx)
    (hchan : ChannelAccepts s.plq.length s) :
    payTurn s = complete .sourceUnavailable false 1
      { s with
        txq := s.txq ++ s.plq, plq := [], payIdx := s.payIdx + s.plq.length
        txReplies := s.txReplies.drop s.plq.length } := by
  have hoffer : payOffer s = { sent := s.plq, replies := s.txReplies.drop s.plq.length, how := .done } := by
    rw [payOffer, List.take_of_length_le hplq.le, txOffer_accepts _ _ _ hchan]
  rw [payTurn_of_source (congrArg TxOutcome.how hoffer) hplq.not_ge, if_pos herr]
  simp only [payAdvance, hoffer, reduceCtorEq, if_false, List.drop_length]

/-- Settles O41: the payload's turn, cut short by SRC. -/
theorem payloadSourceFailure : Obligations.PayloadSourceFailure := by
  unfold Obligations.PayloadSourceFailure
  intro s hsched hphase hop herr hplq hchan
  have hstep := (step_pays hsched hphase).trans
    (congrArg Host.Outcome.next (payTurn_sourceUnavailable (s := { s with progValid := false }) herr hplq hchan))
  exact ⟨_, hstep, rfl, rfl, rfl, rfl, resAddr_of_download_or_run (.inl hop), resOffset_of_download hop⟩

end Sys2Proof.Machine
end

section
/-! SEQ after a command: what it makes of the result, and what is left of it once it has stopped (R190). -/

namespace Sys2Proof.Machine

/-- With no move scheduled and an engine without work, the step is SEQ's turn, whatever holds SEQ back (log 2). -/
theorem step_eq_seqTurn_of_idle {s : State} (hsched : s.sched = []) (hphase : s.phase = .idle)
    (hrequest : s.cmdValid = false) : step s = seqTurn { s with progValid := false } := by
  have hwork : ¬engineHasWork { s with progValid := false } = true := by
    simp [engineHasWork_iff, hphase, hrequest]
  rw [step_of_sched_nil s hsched, defaultTurn, if_neg hwork]

/-- A stopped SEQ does nothing. -/
theorem seqTurn_of_stopped {s : State} (hstop : s.seqStop.isSome = true) : seqTurn s = .next s :=
  if_pos hstop

/-- A waiting SEQ takes the result of an idle engine that has no command presented. -/
theorem seqTurn_of_result {s : State} (hphase : s.phase = .idle) (hrequest : s.cmdValid = false)
    (hres : s.resValid = true) (hwait : s.seqWait = true) (hstop : s.seqStop = none) :
    seqTurn s = .next
      (if s.res.kind = .ok then { s with seqWait := false }
        else { s with seqWait := false, seqStop := some s.res.kind, seqActs := [] }) := by
  have hread : s.cmdValid = false ∧ s.busy = false ∧ s.resValid = true :=
    ⟨hrequest, by simp [State.busy, hphase], hres⟩
  rw [seqTurn, if_neg (by simp [hstop]), if_pos hwait, readResult, if_pos hread]

/-- Settles O59: both parts are SEQ's turn, waiting in the one and stopped in the other. -/
theorem sequencerStopsAtFirstFailure : Obligations.SequencerStopsAtFirstFailure := by
  unfold Obligations.SequencerStopsAtFirstFailure
  intro s hsched hphase hrequest hres hwait hstop
  refine ⟨?reads, fun u husched huphase hurequest hustop => ?stopped⟩
  case reads =>
    exact (step_eq_seqTurn_of_idle hsched hphase hrequest).trans (seqTurn_of_result hphase hrequest hres hwait hstop)
  case stopped =>
    exact (step_eq_seqTurn_of_idle husched huphase hurequest).trans (seqTurn_of_stopped hustop)

end Sys2Proof.Machine
end

section
/-! A channel that neither accepts nor signals (R252): the byte offered goes nowhere, and the engine offers it again in every
turn. -/

namespace Sys2Proof.Machine

/-- The engine offers a byte to a channel that answers nothing, now or later, and no move is scheduled (R252). -/
def State.Hangs (s : State) : Prop :=
  s.sched = [] ∧ s.txReplies = [] ∧ s.txRest = .stall ∧
    (s.phase = .txHdr ∧ s.txIdx < 16 ∨ s.phase = .txPay ∧ s.payIdx < s.blkLen ∧ s.plq ≠ [])

/-- The attempt to write to a silent channel moves no byte. -/
theorem txOffer_silent {bs : List Byte} (h : bs ≠ []) :
    txOffer bs [] .stall = { sent := [], replies := [], how := .stall } :=
  txOffer_stall bs [] .stall 0 (List.length_pos_of_ne_nil h) nofun rfl

/-- With no answer to use up and no byte taken, the channel that stops leaves the state as it was. -/
theorem partSent_zero {s : State} (hreplies : s.txReplies = []) : s.partSent 0 = s := by
  have hdrop : s.txReplies.drop (0 + 1) = s.txReplies := by rw [hreplies, List.drop_nil]
  simp only [State.partSent, hdrop, List.take_zero, List.append_nil, Nat.add_zero]

/-- TxWrite to a silent channel leaves the state as it was. -/
theorem txWrite_silent {s : State} (hreplies : s.txReplies = []) (hrest : s.txRest = .stall) (hidx : s.txIdx < 16) :
    txWrite s = s := by
  have hanswer : channelAnswer 0 s = .stall := by rw [channelAnswer, hreplies, hrest]; rfl
  rw [txWrite_stall (Nat.sub_pos_of_lt hidx) nofun hanswer, partSent_zero hreplies]

/-- The payload's turn over a silent channel leaves the state as it was. -/
theorem payTurn_silent {s : State} (hreplies : s.txReplies = []) (hrest : s.txRest = .stall) (hidx : s.payIdx < s.blkLen)
    (hplq : s.plq ≠ []) : payTurn s = s := by
  have hready : s.plq.take (s.blkLen - s.payIdx) ≠ [] := by
    simpa [List.take_eq_nil_iff, hplq] using Nat.sub_ne_zero_of_lt hidx
  have hoffer : payOffer s = { sent := [], replies := s.txReplies, how := .stall } := by
    rw [payOffer, hreplies, hrest, txOffer_silent hready]
  rw [payTurn_of_stall (congrArg TxOutcome.how hoffer)]
  simp only [payAdvance, hoffer, List.append_nil, List.length_nil, Nat.add_zero, reduceCtorEq, if_false, List.drop_zero]

/-- A step of a hanging engine lets the strobe fall, and does nothing else (R29, R252). -/
theorem step_of_hangs {s : State} (h : s.Hangs) : step s = .next { s with progValid := false } := by
  obtain ⟨hsched, hreplies, hrest, ⟨hphase, hidx⟩ | ⟨hphase, hidx, hplq⟩⟩ := h
  · rw [step_engine hsched (.inl (hphase.trans_ne nofun)), engineTurn_txHdr (s := { s with progValid := false }) hphase,
      txWrite_silent (s := { s with progValid := false }) hreplies hrest hidx]
  · rw [step_pays hsched hphase, payTurn_silent (s := { s with progValid := false }) hreplies hrest hidx hplq]

/-- A hanging engine is where it was after any number of steps (R252). -/
theorem run_of_hangs {s : State} (h : s.Hangs) (n : Nat) :
    ∃ t : State, Host.Core.run Sys2Proof.core n s = .next t ∧ t = { s with progValid := t.progValid } := by
  induction n generalizing s with
  | zero => exact ⟨s, rfl, rfl⟩
  | succ n ih =>
    obtain ⟨t, hrun, ht⟩ := ih (s := { s with progValid := false }) h
    exact ⟨t, (run_succ n _ _ (step_of_hangs h)).trans hrun, ht⟩

/-- Settles O38: each step of a hanging engine leaves it hanging. -/
theorem silentChannelHangs : Obligations.SilentChannelHangs := by
  unfold Obligations.SilentChannelHangs
  intro n s hsched hreplies hrest hsending
  exact run_of_hangs ⟨hsched, hreplies, hrest, hsending⟩ n

end Sys2Proof.Machine
end
